-- ==== Sys2Proof/Word.lean ====
section
/-! DEFINITION. The widths of the block (00_scope.md R6): registers and memory bytes have 8 bits, PC and addresses 16. -/

namespace Sys2Proof

/-- An 8-bit register or memory byte (R6). -/
abbrev Byte := BitVec 8

/-- A 16-bit address or program counter (R6). -/
abbrev Word := BitVec 16

end Sys2Proof
end

