-- ==== Sys2Proof/Config.lean ====
section
/-! DEFINITION. What a launch fixes (00_scope.md R6, the rows marked parameter, with their defaults), the plain-data
form of a VSR callback, and the one free value of the model: what host software of unknown body does when it is
called back (93_implementation_defined.md I5). -/

namespace Sys2Proof

/-- Memory outside the block: a canonical list of (address, byte) pairs (20_memory.md R44; Machine/Memory.lean). -/
abbrev Memory := List Host.Cell

/-- The penalty classes of 70_reset_and_hazards.md R232: none, `+p` (page) and `+b` (branch). -/
inductive Penalty where
  | none | page | branch
deriving DecidableEq, Repr

/-- One row of CYCLE_TABLE (R232): base cycles and penalty class. -/
structure CycleRow where
  base : Nat
  penalty : Penalty
deriving DecidableEq, Repr

/-- The parameters that the step reads (R6), constant through a run. DESIGN CHOICE (log 7): they stand in State, so
that a statement about every state is a statement about every parameter value. -/
structure Params where
  /-- STUCK_LIMIT (R6, R172). -/
  stuckLimit : Nat
  /-- JMP_IND_PAGE_WRAP (R6, R84). -/
  jmpIndPageWrap : Bool
  /-- CYCLE_TABLE (R6, R232): rows that replace the NMOS table's row of an opcode; empty is the NMOS table. -/
  cycleTable : List (Byte × CycleRow)
deriving DecidableEq, Repr

/-- The defaults of R6. -/
def Params.default : Params := { stuckLimit := 4, jmpIndPageWrap := true, cycleTable := [] }

/-- N_LEGAL (R6, R177): the number of legal opcodes. -/
def Config.nLegal : Nat := 151

/-- The register snapshot of 10_state.md R39: (PC, S, P, A, X, Y). -/
structure Registers where
  pc : Word
  s : Byte
  p : Byte
  a : Byte
  x : Byte
  y : Byte
deriving DecidableEq, Repr

/-- The 8-bit registers a VSR callback may read and change (R175). -/
inductive VsrReg where
  | a | x | y | s | p
deriving DecidableEq, Repr

/-- Where a callback takes a byte from: a constant, a register or a memory byte. -/
inductive VsrVal where
  | const (v : Byte)
  | reg (r : VsrReg)
  | mem (addr : Word)
deriving DecidableEq, Repr

/-- Engine state that a callback may not change (R175, R174; decision D24). -/
inductive EnginePart where
  | cycles | coverage | vsrRegistry | nmiLatch | irqLine
deriving DecidableEq, Repr

/-- One act of a VSR callback (R175): it may change A, X, Y, S, P, PC and memory and may request exit (R176). The last
constructor is an act outside the model, which the model refuses. -/
inductive VsrAct where
  | setReg (r : VsrReg) (v : VsrVal)
  | setPc (target : Word)
  | poke (addr : Word) (v : VsrVal)
  | requestExit
  | touchEngine (part : EnginePart)
deriving DecidableEq, Repr

/-- A registered host callback as plain data (R36). DESIGN CHOICE (log 4): the launch gives its acts, or names host
software of unknown body. -/
inductive Callback where
  | known (acts : List VsrAct)
  | unknown (id : Nat)
deriving DecidableEq, Repr

/-- What the unknown callback `id` does at the model's `invocation`-th callback, given the registers and memory it
sees. No body: nothing can be proved of its value (R4 (e): the body of a callback is host software; log 4). -/
opaque Config.hostCallback (id invocation : Nat) (regs : Registers) (mem : Memory) : List VsrAct

/-- DIS_SEGMENT (R6, 49_disassembler.md R194): inclusive bounds of the memory the disassembler may read. -/
structure Segment where
  lo : Nat
  hi : Nat
deriving DecidableEq, Repr

/-- The default DIS_SEGMENT, the whole 64 KiB (R6). -/
def Segment.whole : Segment := { lo := 0x0000, hi := 0xFFFF }

end Sys2Proof
end

