-- ==== Sys2Proof/Machine/Bits.lean ====
section
/-! DEFINITION. The bit-field, extension and byte-order helpers of 00_scope.md R7 and R8. -/

namespace Sys2Proof

/-- `hi:lo`, the 16-bit concatenation `hi * 256 + lo` (R7). -/
def concat (hi lo : Byte) : Word := hi ++ lo

/-- `w[15:8]` (R7); it is also the page of the address `w` (00_scope.md, glossary). -/
def hiByte (w : Word) : Byte := w.extractLsb' 8 8

/-- `w[7:0]` (R7). -/
def loByte (w : Word) : Byte := w.extractLsb' 0 8

/-- `zext_16(v)` (R8). -/
def zext16 (v : Byte) : Word := v.setWidth 16

/-- `sext_16(v)` (R8). -/
def sext16 (v : Byte) : Word := v.signExtend 16

/-- Page cross: the two addresses lie on different pages (00_scope.md, glossary). -/
def pageCross (base target : Word) : Bool := hiByte base != hiByte target

end Sys2Proof
end

