-- ==== Sys2Proof/Syntax.lean ====
section
/-! DEFINITION. The instruction set as syntax: the 14 addressing-mode names (30_encoding.md R62), the 56 mnemonics and
the illegal marker (R64, R66), the operands, and the instructions, one constructor per mnemonic of the opcode table. -/

namespace Sys2Proof

/-- The addressing modes (R62): 13, and `none` for illegal entries (90_conflicts.md C1). -/
inductive Mode where
  | none | implied | accumulator | immediate | zeroPage | zeroPageX | zeroPageY | xIndexedIndirect
  | indirectYIndexed | relative | absolute | absoluteX | absoluteY | indirect
deriving DecidableEq, Repr

/-- The three-letter codes of an opcode-table entry, and "illegal" (R64, R66). -/
inductive Mnemonic where
  | adc | and | asl | bcc | bcs | beq | bit | bmi | bne | bpl
  | brk | bvc | bvs | clc | cld | cli | clv | cmp | cpx | cpy
  | dec | dex | dey | eor | inc | inx | iny | jmp | jsr | lda
  | ldx | ldy | lsr | nop | ora | pha | php | pla | plp | rol
  | ror | rti | rts | sbc | sec | sed | sei | sta | stx | sty
  | tax | tay | tsx | txa | txs | tya | illegal
deriving DecidableEq, Repr

/-- An opcode-table entry, the pair (mnemonic, mode) (R64). -/
structure OpcodeEntry where
  mnemonic : Mnemonic
  mode : Mode
deriving DecidableEq, Repr

/-- An operand: the addressing mode with the operand field the mode has (R62, R63). -/
inductive Operand where
  | implied
  | accumulator
  | immediate (imm8 : Byte)
  | zeroPage (zp8 : Byte)
  | zeroPageX (zp8 : Byte)
  | zeroPageY (zp8 : Byte)
  | xIndexedIndirect (zp8 : Byte)
  | indirectYIndexed (zp8 : Byte)
  | relative (rel8 : Byte)
  | absolute (abs16 : Word)
  | absoluteX (abs16 : Word)
  | absoluteY (abs16 : Word)
  | indirect (abs16 : Word)
deriving DecidableEq, Repr

/-- The mode of an operand. -/
def Operand.mode : Operand → Mode
  | .implied => .implied
  | .accumulator => .accumulator
  | .immediate _ => .immediate
  | .zeroPage _ => .zeroPage
  | .zeroPageX _ => .zeroPageX
  | .zeroPageY _ => .zeroPageY
  | .xIndexedIndirect _ => .xIndexedIndirect
  | .indirectYIndexed _ => .indirectYIndexed
  | .relative _ => .relative
  | .absolute _ => .absolute
  | .absoluteX _ => .absoluteX
  | .absoluteY _ => .absoluteY
  | .indirect _ => .indirect

/-- The instructions: one constructor per mnemonic of spec/opcode_table.json. A mnemonic with several modes carries its
operand, a branch its offset byte, JSR its target; `illegal` stands for the 105 illegal rows (R67) and carries the
opcode value that its status reports (48_execution_engine.md R171). -/
inductive Instr where
  | adc (operand : Operand)
  | and (operand : Operand)
  | asl (operand : Operand)
  | bcc (rel8 : Byte)
  | bcs (rel8 : Byte)
  | beq (rel8 : Byte)
  | bit (operand : Operand)
  | bmi (rel8 : Byte)
  | bne (rel8 : Byte)
  | bpl (rel8 : Byte)
  | brk
  | bvc (rel8 : Byte)
  | bvs (rel8 : Byte)
  | clc
  | cld
  | cli
  | clv
  | cmp (operand : Operand)
  | cpx (operand : Operand)
  | cpy (operand : Operand)
  | dec (operand : Operand)
  | dex
  | dey
  | eor (operand : Operand)
  | inc (operand : Operand)
  | inx
  | iny
  | jmp (operand : Operand)
  | jsr (target : Word)
  | lda (operand : Operand)
  | ldx (operand : Operand)
  | ldy (operand : Operand)
  | lsr (operand : Operand)
  | nop
  | ora (operand : Operand)
  | pha
  | php
  | pla
  | plp
  | rol (operand : Operand)
  | ror (operand : Operand)
  | rti
  | rts
  | sbc (operand : Operand)
  | sec
  | sed
  | sei
  | sta (operand : Operand)
  | stx (operand : Operand)
  | sty (operand : Operand)
  | tax
  | tay
  | tsx
  | txa
  | txs
  | tya
  | illegal (opcode : Byte)
deriving DecidableEq, Repr

/-- The mnemonic of an instruction (R66). -/
def Instr.mnemonic : Instr → Mnemonic
  | .adc _ => .adc
  | .and _ => .and
  | .asl _ => .asl
  | .bcc _ => .bcc
  | .bcs _ => .bcs
  | .beq _ => .beq
  | .bit _ => .bit
  | .bmi _ => .bmi
  | .bne _ => .bne
  | .bpl _ => .bpl
  | .brk => .brk
  | .bvc _ => .bvc
  | .bvs _ => .bvs
  | .clc => .clc
  | .cld => .cld
  | .cli => .cli
  | .clv => .clv
  | .cmp _ => .cmp
  | .cpx _ => .cpx
  | .cpy _ => .cpy
  | .dec _ => .dec
  | .dex => .dex
  | .dey => .dey
  | .eor _ => .eor
  | .inc _ => .inc
  | .inx => .inx
  | .iny => .iny
  | .jmp _ => .jmp
  | .jsr _ => .jsr
  | .lda _ => .lda
  | .ldx _ => .ldx
  | .ldy _ => .ldy
  | .lsr _ => .lsr
  | .nop => .nop
  | .ora _ => .ora
  | .pha => .pha
  | .php => .php
  | .pla => .pla
  | .plp => .plp
  | .rol _ => .rol
  | .ror _ => .ror
  | .rti => .rti
  | .rts => .rts
  | .sbc _ => .sbc
  | .sec => .sec
  | .sed => .sed
  | .sei => .sei
  | .sta _ => .sta
  | .stx _ => .stx
  | .sty _ => .sty
  | .tax => .tax
  | .tay => .tay
  | .tsx => .tsx
  | .txa => .txa
  | .txs => .txs
  | .tya => .tya
  | .illegal _ => .illegal

/-- The mode of an instruction (R66); an illegal entry has mode `none` (R67). -/
def Instr.mode : Instr → Mode
  | .adc o => o.mode
  | .and o => o.mode
  | .asl o => o.mode
  | .bcc _ => .relative
  | .bcs _ => .relative
  | .beq _ => .relative
  | .bit o => o.mode
  | .bmi _ => .relative
  | .bne _ => .relative
  | .bpl _ => .relative
  | .brk => .implied
  | .bvc _ => .relative
  | .bvs _ => .relative
  | .clc => .implied
  | .cld => .implied
  | .cli => .implied
  | .clv => .implied
  | .cmp o => o.mode
  | .cpx o => o.mode
  | .cpy o => o.mode
  | .dec o => o.mode
  | .dex => .implied
  | .dey => .implied
  | .eor o => o.mode
  | .inc o => o.mode
  | .inx => .implied
  | .iny => .implied
  | .jmp o => o.mode
  | .jsr _ => .absolute
  | .lda o => o.mode
  | .ldx o => o.mode
  | .ldy o => o.mode
  | .lsr o => o.mode
  | .nop => .implied
  | .ora o => o.mode
  | .pha => .implied
  | .php => .implied
  | .pla => .implied
  | .plp => .implied
  | .rol o => o.mode
  | .ror o => o.mode
  | .rti => .implied
  | .rts => .implied
  | .sbc o => o.mode
  | .sec => .implied
  | .sed => .implied
  | .sei => .implied
  | .sta o => o.mode
  | .stx o => o.mode
  | .sty o => o.mode
  | .tax => .implied
  | .tay => .implied
  | .tsx => .implied
  | .txa => .implied
  | .txs => .implied
  | .tya => .implied
  | .illegal _ => .none

end Sys2Proof
end

