-- ==== Sys2Proof/WellFormed.lean ====
section
/-! DEFINITION. Which instruction terms an encoding gives: the modes of each mnemonic (30_encoding.md R66, R70) and the
illegal opcode values (R67). Written from R67's and R70's own lists, apart from the tables of Decode.lean. -/

namespace Sys2Proof

/-- The eight modes of the ALU group `cc = 01` (R73). -/
def aluModes : List Mode :=
  [.immediate, .zeroPage, .zeroPageX, .absolute, .absoluteX, .absoluteY, .xIndexedIndirect, .indirectYIndexed]

/-- The modes of the shifts and rotates (R70: Accumulator only by ASL, LSR, ROL and ROR). -/
def shiftModes : List Mode := [.accumulator, .zeroPage, .zeroPageX, .absolute, .absoluteX]

/-- Which modes each mnemonic may take (R70, R66). -/
def Mnemonic.modes : Mnemonic → List Mode
  | .adc | .and | .cmp | .eor | .lda | .ora | .sbc => aluModes
  | .sta => [.zeroPage, .zeroPageX, .absolute, .absoluteX, .absoluteY, .xIndexedIndirect, .indirectYIndexed]
  | .stx => [.zeroPage, .zeroPageY, .absolute]
  | .sty => [.zeroPage, .zeroPageX, .absolute]
  | .ldx => [.immediate, .zeroPage, .zeroPageY, .absolute, .absoluteY]
  | .ldy => [.immediate, .zeroPage, .zeroPageX, .absolute, .absoluteX]
  | .cpx | .cpy => [.immediate, .zeroPage, .absolute]
  | .bit => [.zeroPage, .absolute]
  | .asl | .lsr | .rol | .ror => shiftModes
  | .inc | .dec => [.zeroPage, .zeroPageX, .absolute, .absoluteX]
  | .bcc | .bcs | .beq | .bmi | .bne | .bpl | .bvc | .bvs => [.relative]
  | .jmp => [.absolute, .indirect]
  | .jsr => [.absolute]
  | .brk | .clc | .cld | .cli | .clv | .dex | .dey | .inx | .iny | .nop => [.implied]
  | .pha | .php | .pla | .plp | .rti | .rts | .sec | .sed | .sei => [.implied]
  | .tax | .tay | .tsx | .txa | .txs | .tya => [.implied]
  | .illegal => [.none]

/-- The 105 illegal opcode values, as R67 lists them. -/
def illegalOpcodes : List Byte :=
  [0x02, 0x03, 0x04, 0x07, 0x0B, 0x0C, 0x0F, 0x12, 0x13, 0x14, 0x17, 0x1A, 0x1B, 0x1C, 0x1F] ++
  [0x22, 0x23, 0x27, 0x2B, 0x2F, 0x32, 0x33, 0x34, 0x37, 0x3A, 0x3B, 0x3C, 0x3F, 0x42, 0x43] ++
  [0x44, 0x47, 0x4B, 0x4F, 0x52, 0x53, 0x54, 0x57, 0x5A, 0x5B, 0x5C, 0x5F, 0x62, 0x63, 0x64] ++
  [0x67, 0x6B, 0x6F, 0x72, 0x73, 0x74, 0x77, 0x7A, 0x7B, 0x7C, 0x7F, 0x80, 0x82, 0x83, 0x87] ++
  [0x89, 0x8B, 0x8F, 0x92, 0x93, 0x97, 0x9B, 0x9C, 0x9E, 0x9F, 0xA3, 0xA7, 0xAB, 0xAF, 0xB2] ++
  [0xB3, 0xB7, 0xBB, 0xBF, 0xC2, 0xC3, 0xC7, 0xCB, 0xCF, 0xD2, 0xD3, 0xD4, 0xD7, 0xDA, 0xDB] ++
  [0xDC, 0xDF, 0xE2, 0xE3, 0xE7, 0xEB, 0xEF, 0xF2, 0xF3, 0xF4, 0xF7, 0xFA, 0xFB, 0xFC, 0xFF]

/-- An instruction term that some encoding gives: its mode is one of its mnemonic's, and an `illegal` term carries an
illegal opcode value. -/
def Instr.wf (i : Instr) : Bool :=
  i.mnemonic.modes.contains i.mode &&
  match i with
  | .illegal op => illegalOpcodes.contains op
  | _ => true

end Sys2Proof
end

