-- ==== Sys2Proof/Decode.lean ====
section
/-! DEFINITION. The opcode table (30_encoding.md R64 to R67), instruction lengths (R62, R69), the decoder, total on any
bytes, and the encoder. The decoder follows the map by opcode (R65), the encoder the map by mnemonic (R66). -/

namespace Sys2Proof

/-- The instruction length of a mode (R62). -/
def Mode.length : Mode → Nat
  | .none | .accumulator | .implied => 1
  | .immediate | .xIndexedIndirect | .indirectYIndexed | .relative | .zeroPage | .zeroPageX | .zeroPageY => 2
  | .absolute | .absoluteX | .absoluteY | .indirect => 3

/-- An illegal entry of the opcode table: mnemonic "illegal", mode None (R67). -/
def illegalEntry : OpcodeEntry := ⟨.illegal, .none⟩

/-- Row 0x of R65. -/
def opcodeRow0 : List OpcodeEntry :=
  [⟨.brk, .implied⟩, ⟨.ora, .xIndexedIndirect⟩, illegalEntry, illegalEntry,
   illegalEntry, ⟨.ora, .zeroPage⟩, ⟨.asl, .zeroPage⟩, illegalEntry,
   ⟨.php, .implied⟩, ⟨.ora, .immediate⟩, ⟨.asl, .accumulator⟩, illegalEntry,
   illegalEntry, ⟨.ora, .absolute⟩, ⟨.asl, .absolute⟩, illegalEntry]

/-- Row 1x of R65. -/
def opcodeRow1 : List OpcodeEntry :=
  [⟨.bpl, .relative⟩, ⟨.ora, .indirectYIndexed⟩, illegalEntry, illegalEntry,
   illegalEntry, ⟨.ora, .zeroPageX⟩, ⟨.asl, .zeroPageX⟩, illegalEntry,
   ⟨.clc, .implied⟩, ⟨.ora, .absoluteY⟩, illegalEntry, illegalEntry,
   illegalEntry, ⟨.ora, .absoluteX⟩, ⟨.asl, .absoluteX⟩, illegalEntry]

/-- Row 2x of R65. -/
def opcodeRow2 : List OpcodeEntry :=
  [⟨.jsr, .absolute⟩, ⟨.and, .xIndexedIndirect⟩, illegalEntry, illegalEntry,
   ⟨.bit, .zeroPage⟩, ⟨.and, .zeroPage⟩, ⟨.rol, .zeroPage⟩, illegalEntry,
   ⟨.plp, .implied⟩, ⟨.and, .immediate⟩, ⟨.rol, .accumulator⟩, illegalEntry,
   ⟨.bit, .absolute⟩, ⟨.and, .absolute⟩, ⟨.rol, .absolute⟩, illegalEntry]

/-- Row 3x of R65. -/
def opcodeRow3 : List OpcodeEntry :=
  [⟨.bmi, .relative⟩, ⟨.and, .indirectYIndexed⟩, illegalEntry, illegalEntry,
   illegalEntry, ⟨.and, .zeroPageX⟩, ⟨.rol, .zeroPageX⟩, illegalEntry,
   ⟨.sec, .implied⟩, ⟨.and, .absoluteY⟩, illegalEntry, illegalEntry,
   illegalEntry, ⟨.and, .absoluteX⟩, ⟨.rol, .absoluteX⟩, illegalEntry]

/-- Row 4x of R65. -/
def opcodeRow4 : List OpcodeEntry :=
  [⟨.rti, .implied⟩, ⟨.eor, .xIndexedIndirect⟩, illegalEntry, illegalEntry,
   illegalEntry, ⟨.eor, .zeroPage⟩, ⟨.lsr, .zeroPage⟩, illegalEntry,
   ⟨.pha, .implied⟩, ⟨.eor, .immediate⟩, ⟨.lsr, .accumulator⟩, illegalEntry,
   ⟨.jmp, .absolute⟩, ⟨.eor, .absolute⟩, ⟨.lsr, .absolute⟩, illegalEntry]

/-- Row 5x of R65. -/
def opcodeRow5 : List OpcodeEntry :=
  [⟨.bvc, .relative⟩, ⟨.eor, .indirectYIndexed⟩, illegalEntry, illegalEntry,
   illegalEntry, ⟨.eor, .zeroPageX⟩, ⟨.lsr, .zeroPageX⟩, illegalEntry,
   ⟨.cli, .implied⟩, ⟨.eor, .absoluteY⟩, illegalEntry, illegalEntry,
   illegalEntry, ⟨.eor, .absoluteX⟩, ⟨.lsr, .absoluteX⟩, illegalEntry]

/-- Row 6x of R65. -/
def opcodeRow6 : List OpcodeEntry :=
  [⟨.rts, .implied⟩, ⟨.adc, .xIndexedIndirect⟩, illegalEntry, illegalEntry,
   illegalEntry, ⟨.adc, .zeroPage⟩, ⟨.ror, .zeroPage⟩, illegalEntry,
   ⟨.pla, .implied⟩, ⟨.adc, .immediate⟩, ⟨.ror, .accumulator⟩, illegalEntry,
   ⟨.jmp, .indirect⟩, ⟨.adc, .absolute⟩, ⟨.ror, .absolute⟩, illegalEntry]

/-- Row 7x of R65. -/
def opcodeRow7 : List OpcodeEntry :=
  [⟨.bvs, .relative⟩, ⟨.adc, .indirectYIndexed⟩, illegalEntry, illegalEntry,
   illegalEntry, ⟨.adc, .zeroPageX⟩, ⟨.ror, .zeroPageX⟩, illegalEntry,
   ⟨.sei, .implied⟩, ⟨.adc, .absoluteY⟩, illegalEntry, illegalEntry,
   illegalEntry, ⟨.adc, .absoluteX⟩, ⟨.ror, .absoluteX⟩, illegalEntry]

/-- Row 8x of R65. -/
def opcodeRow8 : List OpcodeEntry :=
  [illegalEntry, ⟨.sta, .xIndexedIndirect⟩, illegalEntry, illegalEntry,
   ⟨.sty, .zeroPage⟩, ⟨.sta, .zeroPage⟩, ⟨.stx, .zeroPage⟩, illegalEntry,
   ⟨.dey, .implied⟩, illegalEntry, ⟨.txa, .implied⟩, illegalEntry,
   ⟨.sty, .absolute⟩, ⟨.sta, .absolute⟩, ⟨.stx, .absolute⟩, illegalEntry]

/-- Row 9x of R65. -/
def opcodeRow9 : List OpcodeEntry :=
  [⟨.bcc, .relative⟩, ⟨.sta, .indirectYIndexed⟩, illegalEntry, illegalEntry,
   ⟨.sty, .zeroPageX⟩, ⟨.sta, .zeroPageX⟩, ⟨.stx, .zeroPageY⟩, illegalEntry,
   ⟨.tya, .implied⟩, ⟨.sta, .absoluteY⟩, ⟨.txs, .implied⟩, illegalEntry,
   illegalEntry, ⟨.sta, .absoluteX⟩, illegalEntry, illegalEntry]

/-- Row Ax of R65. -/
def opcodeRowA : List OpcodeEntry :=
  [⟨.ldy, .immediate⟩, ⟨.lda, .xIndexedIndirect⟩, ⟨.ldx, .immediate⟩, illegalEntry,
   ⟨.ldy, .zeroPage⟩, ⟨.lda, .zeroPage⟩, ⟨.ldx, .zeroPage⟩, illegalEntry,
   ⟨.tay, .implied⟩, ⟨.lda, .immediate⟩, ⟨.tax, .implied⟩, illegalEntry,
   ⟨.ldy, .absolute⟩, ⟨.lda, .absolute⟩, ⟨.ldx, .absolute⟩, illegalEntry]

/-- Row Bx of R65. -/
def opcodeRowB : List OpcodeEntry :=
  [⟨.bcs, .relative⟩, ⟨.lda, .indirectYIndexed⟩, illegalEntry, illegalEntry,
   ⟨.ldy, .zeroPageX⟩, ⟨.lda, .zeroPageX⟩, ⟨.ldx, .zeroPageY⟩, illegalEntry,
   ⟨.clv, .implied⟩, ⟨.lda, .absoluteY⟩, ⟨.tsx, .implied⟩, illegalEntry,
   ⟨.ldy, .absoluteX⟩, ⟨.lda, .absoluteX⟩, ⟨.ldx, .absoluteY⟩, illegalEntry]

/-- Row Cx of R65. -/
def opcodeRowC : List OpcodeEntry :=
  [⟨.cpy, .immediate⟩, ⟨.cmp, .xIndexedIndirect⟩, illegalEntry, illegalEntry,
   ⟨.cpy, .zeroPage⟩, ⟨.cmp, .zeroPage⟩, ⟨.dec, .zeroPage⟩, illegalEntry,
   ⟨.iny, .implied⟩, ⟨.cmp, .immediate⟩, ⟨.dex, .implied⟩, illegalEntry,
   ⟨.cpy, .absolute⟩, ⟨.cmp, .absolute⟩, ⟨.dec, .absolute⟩, illegalEntry]

/-- Row Dx of R65. -/
def opcodeRowD : List OpcodeEntry :=
  [⟨.bne, .relative⟩, ⟨.cmp, .indirectYIndexed⟩, illegalEntry, illegalEntry,
   illegalEntry, ⟨.cmp, .zeroPageX⟩, ⟨.dec, .zeroPageX⟩, illegalEntry,
   ⟨.cld, .implied⟩, ⟨.cmp, .absoluteY⟩, illegalEntry, illegalEntry,
   illegalEntry, ⟨.cmp, .absoluteX⟩, ⟨.dec, .absoluteX⟩, illegalEntry]

/-- Row Ex of R65. -/
def opcodeRowE : List OpcodeEntry :=
  [⟨.cpx, .immediate⟩, ⟨.sbc, .xIndexedIndirect⟩, illegalEntry, illegalEntry,
   ⟨.cpx, .zeroPage⟩, ⟨.sbc, .zeroPage⟩, ⟨.inc, .zeroPage⟩, illegalEntry,
   ⟨.inx, .implied⟩, ⟨.sbc, .immediate⟩, ⟨.nop, .implied⟩, illegalEntry,
   ⟨.cpx, .absolute⟩, ⟨.sbc, .absolute⟩, ⟨.inc, .absolute⟩, illegalEntry]

/-- Row Fx of R65. -/
def opcodeRowF : List OpcodeEntry :=
  [⟨.beq, .relative⟩, ⟨.sbc, .indirectYIndexed⟩, illegalEntry, illegalEntry,
   illegalEntry, ⟨.sbc, .zeroPageX⟩, ⟨.inc, .zeroPageX⟩, illegalEntry,
   ⟨.sed, .implied⟩, ⟨.sbc, .absoluteY⟩, illegalEntry, illegalEntry,
   illegalEntry, ⟨.sbc, .absoluteX⟩, ⟨.inc, .absoluteX⟩, illegalEntry]

/-- The opcode map of R65: 16 rows of 16 entries. -/
def opcodeMap : List (List OpcodeEntry) :=
  [opcodeRow0, opcodeRow1, opcodeRow2, opcodeRow3, opcodeRow4, opcodeRow5, opcodeRow6, opcodeRow7,
   opcodeRow8, opcodeRow9, opcodeRowA, opcodeRowB, opcodeRowC, opcodeRowD, opcodeRowE, opcodeRowF]

/-- `lookup(opcode)` (R64): the entry at row `opcode[7:4]`, column `opcode[3:0]` of R65. -/
def lookup (op : Byte) : OpcodeEntry :=
  (opcodeMap.getD (op.toNat / 16) []).getD (op.toNat % 16) illegalEntry

/-- An opcode value is illegal (R67). -/
def isIllegal (op : Byte) : Bool := (lookup op).mnemonic == .illegal

/-- The opcodes of a mnemonic, mode by mode: a row of R66. -/
def Mnemonic.opcodes : Mnemonic → List (Mode × Byte)
  | .adc => [(.immediate, 0x69), (.zeroPage, 0x65), (.zeroPageX, 0x75), (.xIndexedIndirect, 0x61),
      (.indirectYIndexed, 0x71), (.absolute, 0x6D), (.absoluteX, 0x7D), (.absoluteY, 0x79)]
  | .and => [(.immediate, 0x29), (.zeroPage, 0x25), (.zeroPageX, 0x35), (.xIndexedIndirect, 0x21),
      (.indirectYIndexed, 0x31), (.absolute, 0x2D), (.absoluteX, 0x3D), (.absoluteY, 0x39)]
  | .asl => [(.accumulator, 0x0A), (.zeroPage, 0x06), (.zeroPageX, 0x16), (.absolute, 0x0E), (.absoluteX, 0x1E)]
  | .bcc => [(.relative, 0x90)]
  | .bcs => [(.relative, 0xB0)]
  | .beq => [(.relative, 0xF0)]
  | .bit => [(.zeroPage, 0x24), (.absolute, 0x2C)]
  | .bmi => [(.relative, 0x30)]
  | .bne => [(.relative, 0xD0)]
  | .bpl => [(.relative, 0x10)]
  | .brk => [(.implied, 0x00)]
  | .bvc => [(.relative, 0x50)]
  | .bvs => [(.relative, 0x70)]
  | .clc => [(.implied, 0x18)]
  | .cld => [(.implied, 0xD8)]
  | .cli => [(.implied, 0x58)]
  | .clv => [(.implied, 0xB8)]
  | .cmp => [(.immediate, 0xC9), (.zeroPage, 0xC5), (.zeroPageX, 0xD5), (.xIndexedIndirect, 0xC1),
      (.indirectYIndexed, 0xD1), (.absolute, 0xCD), (.absoluteX, 0xDD), (.absoluteY, 0xD9)]
  | .cpx => [(.immediate, 0xE0), (.zeroPage, 0xE4), (.absolute, 0xEC)]
  | .cpy => [(.immediate, 0xC0), (.zeroPage, 0xC4), (.absolute, 0xCC)]
  | .dec => [(.zeroPage, 0xC6), (.zeroPageX, 0xD6), (.absolute, 0xCE), (.absoluteX, 0xDE)]
  | .dex => [(.implied, 0xCA)]
  | .dey => [(.implied, 0x88)]
  | .eor => [(.immediate, 0x49), (.zeroPage, 0x45), (.zeroPageX, 0x55), (.xIndexedIndirect, 0x41),
      (.indirectYIndexed, 0x51), (.absolute, 0x4D), (.absoluteX, 0x5D), (.absoluteY, 0x59)]
  | .inc => [(.zeroPage, 0xE6), (.zeroPageX, 0xF6), (.absolute, 0xEE), (.absoluteX, 0xFE)]
  | .inx => [(.implied, 0xE8)]
  | .iny => [(.implied, 0xC8)]
  | .jmp => [(.absolute, 0x4C), (.indirect, 0x6C)]
  | .jsr => [(.absolute, 0x20)]
  | .lda => [(.immediate, 0xA9), (.zeroPage, 0xA5), (.zeroPageX, 0xB5), (.xIndexedIndirect, 0xA1),
      (.indirectYIndexed, 0xB1), (.absolute, 0xAD), (.absoluteX, 0xBD), (.absoluteY, 0xB9)]
  | .ldx => [(.immediate, 0xA2), (.zeroPage, 0xA6), (.zeroPageY, 0xB6), (.absolute, 0xAE), (.absoluteY, 0xBE)]
  | .ldy => [(.immediate, 0xA0), (.zeroPage, 0xA4), (.zeroPageX, 0xB4), (.absolute, 0xAC), (.absoluteX, 0xBC)]
  | .lsr => [(.accumulator, 0x4A), (.zeroPage, 0x46), (.zeroPageX, 0x56), (.absolute, 0x4E), (.absoluteX, 0x5E)]
  | .nop => [(.implied, 0xEA)]
  | .ora => [(.immediate, 0x09), (.zeroPage, 0x05), (.zeroPageX, 0x15), (.xIndexedIndirect, 0x01),
      (.indirectYIndexed, 0x11), (.absolute, 0x0D), (.absoluteX, 0x1D), (.absoluteY, 0x19)]
  | .pha => [(.implied, 0x48)]
  | .php => [(.implied, 0x08)]
  | .pla => [(.implied, 0x68)]
  | .plp => [(.implied, 0x28)]
  | .rol => [(.accumulator, 0x2A), (.zeroPage, 0x26), (.zeroPageX, 0x36), (.absolute, 0x2E), (.absoluteX, 0x3E)]
  | .ror => [(.accumulator, 0x6A), (.zeroPage, 0x66), (.zeroPageX, 0x76), (.absolute, 0x6E), (.absoluteX, 0x7E)]
  | .rti => [(.implied, 0x40)]
  | .rts => [(.implied, 0x60)]
  | .sbc => [(.immediate, 0xE9), (.zeroPage, 0xE5), (.zeroPageX, 0xF5), (.xIndexedIndirect, 0xE1),
      (.indirectYIndexed, 0xF1), (.absolute, 0xED), (.absoluteX, 0xFD), (.absoluteY, 0xF9)]
  | .sec => [(.implied, 0x38)]
  | .sed => [(.implied, 0xF8)]
  | .sei => [(.implied, 0x78)]
  | .sta => [(.zeroPage, 0x85), (.zeroPageX, 0x95), (.xIndexedIndirect, 0x81), (.indirectYIndexed, 0x91),
      (.absolute, 0x8D), (.absoluteX, 0x9D), (.absoluteY, 0x99)]
  | .stx => [(.zeroPage, 0x86), (.zeroPageY, 0x96), (.absolute, 0x8E)]
  | .sty => [(.zeroPage, 0x84), (.zeroPageX, 0x94), (.absolute, 0x8C)]
  | .tax => [(.implied, 0xAA)]
  | .tay => [(.implied, 0xA8)]
  | .tsx => [(.implied, 0xBA)]
  | .txa => [(.implied, 0x8A)]
  | .txs => [(.implied, 0x9A)]
  | .tya => [(.implied, 0x98)]
  | .illegal => []

/-- The opcode of a mnemonic in a mode (R66); none where the combination is not encodable. -/
def opcodeOf (mn : Mnemonic) (mode : Mode) : Option Byte := mn.opcodes.lookup mode

/-- The opcode byte of an instruction; none for a term that no encoding gives (R66, R67). -/
def Instr.opcode (i : Instr) : Option Byte :=
  match i with
  | .illegal op => if isIllegal op then some op else none
  | i => opcodeOf i.mnemonic i.mode

/-- The length of an instruction in bytes (R69). -/
def Instr.length (i : Instr) : Nat := i.mode.length

/-- Operand assembly (R63) from the bytes `b1` and `b2`; a mode uses only the bytes its length has. -/
def operandOf (mode : Mode) (b1 b2 : Byte) : Operand :=
  match mode with
  | .none | .implied => .implied
  | .accumulator => .accumulator
  | .immediate => .immediate b1
  | .zeroPage => .zeroPage b1
  | .zeroPageX => .zeroPageX b1
  | .zeroPageY => .zeroPageY b1
  | .xIndexedIndirect => .xIndexedIndirect b1
  | .indirectYIndexed => .indirectYIndexed b1
  | .relative => .relative b1
  | .absolute => .absolute (concat b2 b1)
  | .absoluteX => .absoluteX (concat b2 b1)
  | .absoluteY => .absoluteY (concat b2 b1)
  | .indirect => .indirect (concat b2 b1)

/-- The instruction whose opcode byte is `op` and whose operand bytes are `b1` and `b2` (R61, R63, R166): decoding
has no other input. -/
def assemble (op b1 b2 : Byte) : Instr :=
  let o := operandOf (lookup op).mode b1 b2
  match (lookup op).mnemonic with
  | .adc => .adc o
  | .and => .and o
  | .asl => .asl o
  | .bcc => .bcc b1
  | .bcs => .bcs b1
  | .beq => .beq b1
  | .bit => .bit o
  | .bmi => .bmi b1
  | .bne => .bne b1
  | .bpl => .bpl b1
  | .brk => .brk
  | .bvc => .bvc b1
  | .bvs => .bvs b1
  | .clc => .clc
  | .cld => .cld
  | .cli => .cli
  | .clv => .clv
  | .cmp => .cmp o
  | .cpx => .cpx o
  | .cpy => .cpy o
  | .dec => .dec o
  | .dex => .dex
  | .dey => .dey
  | .eor => .eor o
  | .inc => .inc o
  | .inx => .inx
  | .iny => .iny
  | .jmp => .jmp o
  | .jsr => .jsr (concat b2 b1)
  | .lda => .lda o
  | .ldx => .ldx o
  | .ldy => .ldy o
  | .lsr => .lsr o
  | .nop => .nop
  | .ora => .ora o
  | .pha => .pha
  | .php => .php
  | .pla => .pla
  | .plp => .plp
  | .rol => .rol o
  | .ror => .ror o
  | .rti => .rti
  | .rts => .rts
  | .sbc => .sbc o
  | .sec => .sec
  | .sed => .sed
  | .sei => .sei
  | .sta => .sta o
  | .stx => .stx o
  | .sty => .sty o
  | .tax => .tax
  | .tay => .tay
  | .tsx => .tsx
  | .txa => .txa
  | .txs => .txs
  | .tya => .tya
  | .illegal => .illegal op

/-- Why a list of bytes does not decode: it is empty, or it ends inside the instruction that begins with `op`. -/
inductive DecodeError where
  | empty
  | truncated (op : Byte)
deriving DecidableEq, Repr

/-- The decoder, total on any bytes: the first instruction and the bytes after it. An illegal opcode value decodes to
the one-byte instruction `illegal` (R67). -/
def decode : List Byte → Except DecodeError (Instr × List Byte)
  | [] => .error .empty
  | op :: rest =>
    match (lookup op).mode.length, rest with
    | 1, rest => .ok (assemble op 0 0, rest)
    | 2, b1 :: rest => .ok (assemble op b1 0, rest)
    | 3, b1 :: b2 :: rest => .ok (assemble op b1 b2, rest)
    | _, _ => .error (.truncated op)

/-- The operand bytes of an operand, low byte of an address first (R61, R63). -/
def Operand.bytes : Operand → List Byte
  | .implied | .accumulator => []
  | .immediate b | .zeroPage b | .zeroPageX b | .zeroPageY b => [b]
  | .xIndexedIndirect b | .indirectYIndexed b | .relative b => [b]
  | .absolute a | .absoluteX a | .absoluteY a | .indirect a => [loByte a, hiByte a]

/-- The operand of an instruction, in the form its mode gives it. -/
def Instr.operand : Instr → Operand
  | .adc o => o
  | .and o => o
  | .asl o => o
  | .bcc b => .relative b
  | .bcs b => .relative b
  | .beq b => .relative b
  | .bit o => o
  | .bmi b => .relative b
  | .bne b => .relative b
  | .bpl b => .relative b
  | .brk => .implied
  | .bvc b => .relative b
  | .bvs b => .relative b
  | .clc => .implied
  | .cld => .implied
  | .cli => .implied
  | .clv => .implied
  | .cmp o => o
  | .cpx o => o
  | .cpy o => o
  | .dec o => o
  | .dex => .implied
  | .dey => .implied
  | .eor o => o
  | .inc o => o
  | .inx => .implied
  | .iny => .implied
  | .jmp o => o
  | .jsr target => .absolute target
  | .lda o => o
  | .ldx o => o
  | .ldy o => o
  | .lsr o => o
  | .nop => .implied
  | .ora o => o
  | .pha => .implied
  | .php => .implied
  | .pla => .implied
  | .plp => .implied
  | .rol o => o
  | .ror o => o
  | .rti => .implied
  | .rts => .implied
  | .sbc o => o
  | .sec => .implied
  | .sed => .implied
  | .sei => .implied
  | .sta o => o
  | .stx o => o
  | .sty o => o
  | .tax => .implied
  | .tay => .implied
  | .tsx => .implied
  | .txa => .implied
  | .txs => .implied
  | .tya => .implied
  | .illegal _ => .implied

/-- The encoder: the bytes of a well-formed instruction (R61, R66); none for a term that no encoding gives. -/
def encode (i : Instr) : List Byte :=
  match i.opcode with
  | some op => op :: i.operand.bytes
  | none => []

/-- The first three bytes of an instruction whose bits are `w`, numbered as spec/opcode_table.json numbers them (byte 0
is bits 7..0), every bit from `nbits` on being 0. -/
def tableBytes (nbits w : Nat) : List Byte :=
  let v := w % 2 ^ nbits
  [BitVec.ofNat 8 v, BitVec.ofNat 8 (v / 256), BitVec.ofNat 8 (v / 65536)]

end Sys2Proof

/-- The instruction the decoder reads from the table word `w` of `nbits` bits. -/
def Sys2Proof.decodeTableWord (nbits w : Nat) : Option Sys2Proof.Instr :=
  match Sys2Proof.decode (Sys2Proof.tableBytes nbits w) with
  | .ok (i, _) => some i
  | .error _ => none
end

