-- ==== Sys2Proof/Machine/Cycles.lean ====
section
/-! DEFINITION. CYCLE_TABLE: base cycles and penalty class of every legal opcode (70_reset_and_hazards.md R232). -/

namespace Sys2Proof

/-- A row of R232: the cells of a mnemonic, mode by mode. -/
def Mnemonic.cycleCells : Mnemonic → List (Mode × CycleRow)
  | .adc => [(.immediate, ⟨2, .none⟩), (.zeroPage, ⟨3, .none⟩), (.zeroPageX, ⟨4, .none⟩), (.xIndexedIndirect, ⟨6, .none⟩),
      (.indirectYIndexed, ⟨5, .page⟩), (.absolute, ⟨4, .none⟩), (.absoluteX, ⟨4, .page⟩), (.absoluteY, ⟨4, .page⟩)]
  | .and => [(.immediate, ⟨2, .none⟩), (.zeroPage, ⟨3, .none⟩), (.zeroPageX, ⟨4, .none⟩), (.xIndexedIndirect, ⟨6, .none⟩),
      (.indirectYIndexed, ⟨5, .page⟩), (.absolute, ⟨4, .none⟩), (.absoluteX, ⟨4, .page⟩), (.absoluteY, ⟨4, .page⟩)]
  | .asl => [(.accumulator, ⟨2, .none⟩), (.zeroPage, ⟨5, .none⟩), (.zeroPageX, ⟨6, .none⟩), (.absolute, ⟨6, .none⟩),
      (.absoluteX, ⟨7, .none⟩)]
  | .bcc => [(.relative, ⟨2, .branch⟩)]
  | .bcs => [(.relative, ⟨2, .branch⟩)]
  | .beq => [(.relative, ⟨2, .branch⟩)]
  | .bit => [(.zeroPage, ⟨3, .none⟩), (.absolute, ⟨4, .none⟩)]
  | .bmi => [(.relative, ⟨2, .branch⟩)]
  | .bne => [(.relative, ⟨2, .branch⟩)]
  | .bpl => [(.relative, ⟨2, .branch⟩)]
  | .brk => [(.implied, ⟨7, .none⟩)]
  | .bvc => [(.relative, ⟨2, .branch⟩)]
  | .bvs => [(.relative, ⟨2, .branch⟩)]
  | .clc => [(.implied, ⟨2, .none⟩)]
  | .cld => [(.implied, ⟨2, .none⟩)]
  | .cli => [(.implied, ⟨2, .none⟩)]
  | .clv => [(.implied, ⟨2, .none⟩)]
  | .cmp => [(.immediate, ⟨2, .none⟩), (.zeroPage, ⟨3, .none⟩), (.zeroPageX, ⟨4, .none⟩), (.xIndexedIndirect, ⟨6, .none⟩),
      (.indirectYIndexed, ⟨5, .page⟩), (.absolute, ⟨4, .none⟩), (.absoluteX, ⟨4, .page⟩), (.absoluteY, ⟨4, .page⟩)]
  | .cpx => [(.immediate, ⟨2, .none⟩), (.zeroPage, ⟨3, .none⟩), (.absolute, ⟨4, .none⟩)]
  | .cpy => [(.immediate, ⟨2, .none⟩), (.zeroPage, ⟨3, .none⟩), (.absolute, ⟨4, .none⟩)]
  | .dec => [(.zeroPage, ⟨5, .none⟩), (.zeroPageX, ⟨6, .none⟩), (.absolute, ⟨6, .none⟩), (.absoluteX, ⟨7, .none⟩)]
  | .dex => [(.implied, ⟨2, .none⟩)]
  | .dey => [(.implied, ⟨2, .none⟩)]
  | .eor => [(.immediate, ⟨2, .none⟩), (.zeroPage, ⟨3, .none⟩), (.zeroPageX, ⟨4, .none⟩), (.xIndexedIndirect, ⟨6, .none⟩),
      (.indirectYIndexed, ⟨5, .page⟩), (.absolute, ⟨4, .none⟩), (.absoluteX, ⟨4, .page⟩), (.absoluteY, ⟨4, .page⟩)]
  | .inc => [(.zeroPage, ⟨5, .none⟩), (.zeroPageX, ⟨6, .none⟩), (.absolute, ⟨6, .none⟩), (.absoluteX, ⟨7, .none⟩)]
  | .inx => [(.implied, ⟨2, .none⟩)]
  | .iny => [(.implied, ⟨2, .none⟩)]
  | .jmp => [(.absolute, ⟨3, .none⟩), (.indirect, ⟨5, .none⟩)]
  | .jsr => [(.absolute, ⟨6, .none⟩)]
  | .lda => [(.immediate, ⟨2, .none⟩), (.zeroPage, ⟨3, .none⟩), (.zeroPageX, ⟨4, .none⟩), (.xIndexedIndirect, ⟨6, .none⟩),
      (.indirectYIndexed, ⟨5, .page⟩), (.absolute, ⟨4, .none⟩), (.absoluteX, ⟨4, .page⟩), (.absoluteY, ⟨4, .page⟩)]
  | .ldx => [(.immediate, ⟨2, .none⟩), (.zeroPage, ⟨3, .none⟩), (.zeroPageY, ⟨4, .none⟩), (.absolute, ⟨4, .none⟩),
      (.absoluteY, ⟨4, .page⟩)]
  | .ldy => [(.immediate, ⟨2, .none⟩), (.zeroPage, ⟨3, .none⟩), (.zeroPageX, ⟨4, .none⟩), (.absolute, ⟨4, .none⟩),
      (.absoluteX, ⟨4, .page⟩)]
  | .lsr => [(.accumulator, ⟨2, .none⟩), (.zeroPage, ⟨5, .none⟩), (.zeroPageX, ⟨6, .none⟩), (.absolute, ⟨6, .none⟩),
      (.absoluteX, ⟨7, .none⟩)]
  | .nop => [(.implied, ⟨2, .none⟩)]
  | .ora => [(.immediate, ⟨2, .none⟩), (.zeroPage, ⟨3, .none⟩), (.zeroPageX, ⟨4, .none⟩), (.xIndexedIndirect, ⟨6, .none⟩),
      (.indirectYIndexed, ⟨5, .page⟩), (.absolute, ⟨4, .none⟩), (.absoluteX, ⟨4, .page⟩), (.absoluteY, ⟨4, .page⟩)]
  | .pha => [(.implied, ⟨3, .none⟩)]
  | .php => [(.implied, ⟨3, .none⟩)]
  | .pla => [(.implied, ⟨4, .none⟩)]
  | .plp => [(.implied, ⟨4, .none⟩)]
  | .rol => [(.accumulator, ⟨2, .none⟩), (.zeroPage, ⟨5, .none⟩), (.zeroPageX, ⟨6, .none⟩), (.absolute, ⟨6, .none⟩),
      (.absoluteX, ⟨7, .none⟩)]
  | .ror => [(.accumulator, ⟨2, .none⟩), (.zeroPage, ⟨5, .none⟩), (.zeroPageX, ⟨6, .none⟩), (.absolute, ⟨6, .none⟩),
      (.absoluteX, ⟨7, .none⟩)]
  | .rti => [(.implied, ⟨6, .none⟩)]
  | .rts => [(.implied, ⟨6, .none⟩)]
  | .sbc => [(.immediate, ⟨2, .none⟩), (.zeroPage, ⟨3, .none⟩), (.zeroPageX, ⟨4, .none⟩), (.xIndexedIndirect, ⟨6, .none⟩),
      (.indirectYIndexed, ⟨5, .page⟩), (.absolute, ⟨4, .none⟩), (.absoluteX, ⟨4, .page⟩), (.absoluteY, ⟨4, .page⟩)]
  | .sec => [(.implied, ⟨2, .none⟩)]
  | .sed => [(.implied, ⟨2, .none⟩)]
  | .sei => [(.implied, ⟨2, .none⟩)]
  | .sta => [(.zeroPage, ⟨3, .none⟩), (.zeroPageX, ⟨4, .none⟩), (.xIndexedIndirect, ⟨6, .none⟩), (.indirectYIndexed, ⟨6, .none⟩),
      (.absolute, ⟨4, .none⟩), (.absoluteX, ⟨5, .none⟩), (.absoluteY, ⟨5, .none⟩)]
  | .stx => [(.zeroPage, ⟨3, .none⟩), (.zeroPageY, ⟨4, .none⟩), (.absolute, ⟨4, .none⟩)]
  | .sty => [(.zeroPage, ⟨3, .none⟩), (.zeroPageX, ⟨4, .none⟩), (.absolute, ⟨4, .none⟩)]
  | .tax => [(.implied, ⟨2, .none⟩)]
  | .tay => [(.implied, ⟨2, .none⟩)]
  | .tsx => [(.implied, ⟨2, .none⟩)]
  | .txa => [(.implied, ⟨2, .none⟩)]
  | .txs => [(.implied, ⟨2, .none⟩)]
  | .tya => [(.implied, ⟨2, .none⟩)]
  | .illegal => []

/-- The NMOS table's row of an opcode; an illegal opcode costs 0 (R232). -/
def nmosCycles (op : Byte) : CycleRow :=
  ((lookup op).mnemonic.cycleCells.lookup (lookup op).mode).getD ⟨0, .none⟩

/-- The row of an opcode under the launch's CYCLE_TABLE (00_scope.md R6). -/
def Params.cycleRow (c : Params) (op : Byte) : CycleRow :=
  (c.cycleTable.lookup op).getD (nmosCycles op)

/-- The extra cycle of penalty class `page`: 1 when the resolver's `crossed` is true, else 0 (40_addressing.md R89). -/
def Params.pageExtra (c : Params) (op : Byte) (crossed : Bool) : Nat :=
  if (c.cycleRow op).penalty = .page ∧ crossed = true then 1 else 0

end Sys2Proof
end

