-- ==== Sys2Proof/Machine/Flags.lean ====
section
/-! DEFINITION. The status register's layout (10_state.md R23 to R26) and the flag computations of the ALU
(42_arith_logic.md R106 to R112, 43_shift_rotate.md R129), as functions on bytes. -/

namespace Sys2Proof.Machine

/-- The named flags of P (R23). -/
inductive Flag where
  | n | v | b | d | i | z | c
deriving DecidableEq, Repr

/-- The bit of P that holds a flag (R23). -/
def Flag.bit : Flag → Nat
  | .n => 7
  | .v => 6
  | .b => 4
  | .d => 3
  | .i => 2
  | .z => 1
  | .c => 0

/-- The mask of a flag in P. -/
def Flag.mask (f : Flag) : Byte := 1#8 <<< f.bit

/-- The flag's value in a status byte. -/
def getFlag (f : Flag) (p : Byte) : Bool := p.getLsbD f.bit

/-- The status byte with one flag written and every other bit kept. -/
def putFlag (f : Flag) (on : Bool) (p : Byte) : Byte := if on then p ||| f.mask else p &&& ~~~f.mask

/-- Bit 5 of P, hardwired 1 (R24). -/
def bit5 : Byte := 0x20

/-- `SetNZ(v)` (R106). -/
def putNZ (v : Byte) (p : Byte) : Byte := putFlag .z (v == 0) (putFlag .n v.msb p)

/-- What an ALU operation gives: the byte and the flags N, V, Z, C. -/
structure AluResult where
  value : Byte
  n : Bool
  v : Bool
  z : Bool
  c : Bool
deriving DecidableEq, Repr

/-- The status byte with N, V, Z and C taken from an ALU result. -/
def AluResult.putFlags (r : AluResult) (p : Byte) : Byte :=
  putFlag .n r.n (putFlag .v r.v (putFlag .z r.z (putFlag .c r.c p)))

/-- The overflow test `(~(a ^ v)) & (a ^ t) & 0x80 != 0` of R108, R109 and R111. -/
def signedOverflow (a v t : Byte) : Bool := ((~~~(a ^^^ v)) &&& (a ^^^ t) &&& 0x80) != 0

/-- `AdcBinary(v)` (R108) with accumulator `a` and carry-in `c`. -/
def adcBinary (a v : Byte) (c : Bool) : AluResult :=
  let t := a.toNat + v.toNat + c.toNat
  let r := BitVec.ofNat 8 t
  { value := r, n := r.msb, v := signedOverflow a v r, z := r == 0, c := decide (t / 256 ≠ 0) }

/-- The low-nibble sum of `AdcDecimal` with its correction (R109). -/
def adcLowNibble (a v : Byte) (c : Bool) : Nat :=
  let al := a.toNat % 16 + v.toNat % 16 + c.toNat
  if al ≥ 0x0A then (al + 0x06) % 16 + 0x10 else al

/-- `AdcDecimal(v)` (R109; the high-digit test is 90_conflicts.md C2's `t >= 0xA0`): N and V from the sum before the
high-digit fix, Z from the binary sum, C from the decimal result. -/
def adcDecimal (a v : Byte) (c : Bool) : AluResult :=
  let t := a.toNat / 16 * 16 + v.toNat / 16 * 16 + adcLowNibble a v c
  let r := if t ≥ 0xA0 then t + 0x60 else t
  { value := BitVec.ofNat 8 r, n := t.testBit 7, v := signedOverflow a v (BitVec.ofNat 8 t),
    z := BitVec.ofNat 8 (a.toNat + v.toNat + c.toNat) == 0, c := decide (r ≥ 0x100) }

/-- `SbcBinary(v)` (R110): `AdcBinary(~v)`. -/
def sbcBinary (a v : Byte) (c : Bool) : AluResult := adcBinary a (~~~v) c

/-- The low-nibble difference of `SbcDecimal` with its correction (R111); it may be negative. -/
def sbcLowNibble (a v : Byte) (c : Bool) : Int :=
  let al : Int := (a.toNat % 16 : Nat) - (v.toNat % 16 : Nat) + c.toNat - 1
  if al < 0 then (al - 0x06) % 16 - 0x10 else al

/-- The accumulator of `SbcDecimal(v)` (R111). -/
def sbcDecimalValue (a v : Byte) (c : Bool) : Byte :=
  let t : Int := (a.toNat / 16 * 16 : Nat) - (v.toNat / 16 * 16 : Nat) + sbcLowNibble a v c
  BitVec.ofInt 8 (if t < 0 then t - 0x60 else t)

/-- `SbcDecimal(v)` (R111): the accumulator decimal, every flag as `SbcBinary(v)` gives it. -/
def sbcDecimal (a v : Byte) (c : Bool) : AluResult :=
  { sbcBinary a v c with value := sbcDecimalValue a v c }

/-- `Compare(reg, val)` (R107): C, Z and N; the other bits of P are kept. -/
def putCompare (reg val : Byte) (p : Byte) : Byte :=
  putNZ (reg - val) (putFlag .c (decide (reg.toNat ≥ val.toNat)) p)

/-- `Bit(v)` (R112) with accumulator `a`. -/
def putBitTest (a v : Byte) (p : Byte) : Byte :=
  putFlag .z ((v &&& a) == 0) (putFlag .v (v.getLsbD 6) (putFlag .n (v.getLsbD 7) p))

/-- A shift, rotate, increment or decrement: from the operand and P, the result and the new P (R92). -/
abbrev Rmw := Byte → Byte → Byte × Byte

/-- Write C from the bit shifted off and N, Z from the result (R129). -/
def shifted (out : Bool) (r : Byte) (p : Byte) : Byte × Byte := (r, putNZ r (putFlag .c out p))

/-- The carry as a byte, 0 or 1. -/
def carryByte (p : Byte) : Byte := if getFlag .c p then 1 else 0

/-- `ShiftLeft(v)` (R129). -/
def shiftLeft : Rmw := fun v p => shifted (v.getLsbD 7) (v <<< 1) p

/-- `ShiftRight(v)` (R129). -/
def shiftRight : Rmw := fun v p => shifted (v.getLsbD 0) (v >>> 1) p

/-- `RotateLeft(v)` (R129). -/
def rotateLeft : Rmw := fun v p => shifted (v.getLsbD 7) (v <<< 1 ||| carryByte p) p

/-- `RotateRight(v)` (R129). -/
def rotateRight : Rmw := fun v p => shifted (v.getLsbD 0) (v >>> 1 ||| carryByte p <<< 7) p

/-- INC's computation (R123): C and V kept. -/
def increment : Rmw := fun v p => (v + 1, putNZ (v + 1) p)

/-- DEC's computation (R124): C and V kept. -/
def decrement : Rmw := fun v p => (v - 1, putNZ (v - 1) p)

end Sys2Proof.Machine
end

