-- ==== Sys2Proof/Machine/State.lean ====
section
/-! DEFINITION. The state of the block (10_state.md), the reasons a step can stop, and the states after power-on and after
reset. Plain data only. -/

namespace Sys2Proof.Machine

/-- The coverage fraction (48_execution_engine.md R177): the exact rational `exercised / legal`. -/
structure CoverageFraction where
  exercised : Nat
  legal : Nat
deriving DecidableEq, Repr

/-- The run state (10_state.md R34): Running, or the terminal status kept from the step that returned it. Read after a
step it is the step's status, `running` standing for Continue (48_execution_engine.md R173; log 11). -/
inductive RunState where
  | running
  | illegalOpcode (pc : Word) (opcode : Byte)
  | stuck (pc : Word) (cycles : Nat)
  | exited (status : Byte) (cycles : Nat) (coverage : CoverageFraction)
deriving DecidableEq, Repr

/-- The fault reasons. No step of the core raises one: memory accesses never fault and there is no synchronous trap
(60_exceptions.md R200). -/
inductive Fault where
  /-- Raised by the disassembler alone (Machine/Disassembler.lean), for an instruction that would read outside its
  segment; it touches no CPU state (49_disassembler.md R194). Safe. -/
  | outOfRange (addr : Nat)
deriving DecidableEq, Repr

/-- The refusals. -/
inductive Refusal where
  /-- Raised by exec alone, for an instruction without a meaning: none is left. Safe. -/
  | notModelled (mnemonic : String)
  /-- Raised by a meaning for an instruction term that no encoding gives (30_encoding.md R66: "the combination is not
  encodable"); no decoded instruction is one (log 12). Safe. -/
  | notEncodable
  /-- Raised by step, run and the host's reset on a CPU that is not powered (48_execution_engine.md R163: "a model
  refuses it"). Safe. -/
  | notPowered
  /-- Raised by JMP and JSR to a registered address whose callback changes engine state (R175: "is outside the model and
  is refused"; log 6). Safe. -/
  | callbackTouchesEngine (part : EnginePart)
deriving DecidableEq, Repr

/-- The state: the register file (R17 to R23), memory (20_memory.md R44), the engine's bookkeeping (R30 to R37), the
launch's parameters (00_scope.md R6), one local variable of the step, and the counter behind the free values. -/
structure State where
  /-- A (R18). -/
  a : Byte
  /-- X (R19). -/
  x : Byte
  /-- Y (R20). -/
  y : Byte
  /-- S (R21). -/
  sp : Byte
  /-- P (R23 to R25): read through `State.readP`, written whole through `State.setP` (Machine/Ops.lean). -/
  p : Byte
  /-- PC (R22). -/
  pc : Word
  /-- Memory as the core sees it (20_memory.md R42, R44). -/
  mem : Memory
  /-- nmi_latch (R30). -/
  nmiLatch : Bool
  /-- irq_line (R31). -/
  irqLine : Bool
  /-- cycles (R32). -/
  cycles : Nat
  /-- stuck_count (R33). -/
  stuckCount : Nat
  /-- run_state (R34). -/
  runState : RunState
  /-- coverage (R35): the opcode values, strictly rising. -/
  coverage : List Byte
  /-- vsr (R36): strictly rising addresses. -/
  vsr : List (Word × Callback)
  /-- powered (R37). -/
  powered : Bool
  /-- exit_req of the step in progress (48_execution_engine.md R162); false between steps (log 8). -/
  exitReq : Bool
  /-- The model's own: how many callbacks have been invoked (log 5). -/
  vsrCalls : Nat
  /-- The launch's parameters (00_scope.md R6; log 7); nothing changes them. -/
  params : Params
deriving DecidableEq, Repr

/-- A newly constructed CPU, powered, with the power-on values of R40, over the launch's memory and parameters
(70_reset_and_hazards.md R221, R227). -/
def State.construct (mem : Memory) (params : Params) : State :=
  { a := 0x00, x := 0x00, y := 0x00, sp := 0xFD, p := 0x36, pc := 0x0000, mem := mem,
    nmiLatch := false, irqLine := false, cycles := 0, stuckCount := 0, runState := .running,
    coverage := [], vsr := [], powered := true, exitReq := false, vsrCalls := 0, params := params }

/-- The machine right after reset (70_reset_and_hazards.md R223): a constructed CPU with the default parameters on
which the host has called reset(), with nothing listed in memory. PC is the word at the RESET vector of that memory,
0x0000 (DESIGN CHOICE, log 1 and log 3: the launch memory is the host's). -/
def State.reset : State :=
  { a := 0x00, x := 0x00, y := 0x00, sp := 0xFD, p := 0x36, pc := 0x0000, mem := [],
    nmiLatch := false, irqLine := false, cycles := 0, stuckCount := 0, runState := .running,
    coverage := [], vsr := [], powered := true, exitReq := false, vsrCalls := 0, params := .default }

end Sys2Proof.Machine
end

