-- ==== Sys2Proof/Machine/Ops.lean ====
section
/-! DEFINITION. The named operations over registers and memory, taking an interrupt and returning from one, and what
the engine does around an instruction (48_execution_engine.md R162, R168 to R172, R176). -/

namespace Sys2Proof.Machine

/-- What a meaning answers. -/
abbrev Result := Host.Outcome State Fault Refusal

/-! ### Registers and flags (10_state.md) -/

/-- `A <- v`. -/
def State.setA (v : Byte) (s : State) : State := { s with a := v }

/-- `X <- v`. -/
def State.setX (v : Byte) (s : State) : State := { s with x := v }

/-- `Y <- v`. -/
def State.setY (v : Byte) (s : State) : State := { s with y := v }

/-- `S <- v`. -/
def State.setS (v : Byte) (s : State) : State := { s with sp := v }

/-- `PC <- w`. -/
def State.setPc (w : Word) (s : State) : State := { s with pc := w }

/-- A write of P as a whole: bit 5 becomes 1 whatever is written (R24). -/
def State.setP (v : Byte) (s : State) : State := { s with p := v ||| bit5 }

/-- A read of P: bit 5 reads 1 (R24). -/
def State.readP (s : State) : Byte := s.p ||| bit5

/-- A flag of P. -/
def State.flag (f : Flag) (s : State) : Bool := getFlag f s.p

/-- A change of some flags of P (R26). -/
def State.updateP (g : Byte → Byte) (s : State) : State := { s with p := g s.p }

/-- `P.f <- on`. -/
def State.setFlag (f : Flag) (on : Bool) (s : State) : State := s.updateP (putFlag f on)

/-- `SetNZ(v)` (R106). -/
def State.setNZ (v : Byte) (s : State) : State := s.updateP (putNZ v)

/-- The register snapshot (R39). -/
def State.registers (s : State) : Registers :=
  { pc := s.pc, s := s.sp, p := s.readP, a := s.a, x := s.x, y := s.y }

/-! ### Memory (20_memory.md) -/

/-- `MemRead(addr, 1)` (00_scope.md R10). -/
def State.read (s : State) (addr : Word) : Byte := s.mem.read addr.toNat

/-- `MemWrite(addr, 1, v)` (00_scope.md R10). -/
def State.write (addr : Word) (v : Byte) (s : State) : State := { s with mem := s.mem.write addr.toNat v }

/-- `MemRead(addr, 2)` (00_scope.md R10, R46): little-endian, the second address wrapping. -/
def State.read16 (s : State) (addr : Word) : Word := concat (s.read (addr + 1)) (s.read addr)

/-- The stack byte that S names, `0x0100 + S` (R48). -/
def stackAddr (sp : Byte) : Word := concat 0x01 sp

/-- `Push(v)` (R48). -/
def State.push (v : Byte) (s : State) : State := (s.write (stackAddr s.sp) v).setS (s.sp - 1)

/-- `Pull()` (R49): the byte and the state with S incremented. -/
def State.pull (s : State) : Byte × State := (s.read (stackAddr (s.sp + 1)), s.setS (s.sp + 1))

/-- Push a 16-bit value, high byte first (R144, R147, R204). -/
def State.pushWord (w : Word) (s : State) : State := (s.push (hiByte w)).push (loByte w)

/-- Pull a 16-bit value, low byte first (R145, R146). -/
def State.pullWord (s : State) : Word × State :=
  let (lo, s) := s.pull
  let (hi, s) := s.pull
  (concat hi lo, s)

/-- `lo <- Pull(); hi <- Pull(); PC <- wrap16((hi : lo) + 1)`: RTS (R145) and the simulated RTS of a VSR (R175). -/
def State.returnFromSubroutine (s : State) : State :=
  let (w, s) := s.pullWord
  s.setPc (w + 1)

/-! ### Interrupts (60_exceptions.md) -/

/-- The NMI vector (R209). -/
def nmiVector : Word := 0xFFFA

/-- The RESET vector (R209). -/
def resetVector : Word := 0xFFFC

/-- The IRQ/BRK vector (R209). -/
def irqVector : Word := 0xFFFE

/-- `PC <- MemRead(vec, 2)` (R204, R209). -/
def State.loadPc (vector : Word) (s : State) : State := s.setPc (s.read16 vector)

/-- Taking an interrupt, shared by NMI, IRQ (R204) and BRK (R147): push the return address, high byte first, then the
status byte; set I; load PC from the vector. -/
def State.takeInterrupt (vector ret : Word) (status : Byte) (s : State) : State :=
  (((s.pushWord ret).push status).setFlag .i true).loadPc vector

/-- `InterruptEntry(vec)` (R204): the pushed status has B clear and bit 5 set; `P.B` itself is kept. -/
def State.interruptEntry (vector : Word) (s : State) : State :=
  s.takeInterrupt vector s.pc ((s.readP &&& 0xEF) ||| bit5)

/-- Return from interrupt (R146, R210): pull P, bit 5 forced and B loaded, then PC, without adding 1. -/
def State.returnFromInterrupt (s : State) : State :=
  let (p, s) := s.pull
  let s := s.setP p
  let (w, s) := s.pullWord
  s.setPc w

/-! ### The engine around an instruction (48_execution_engine.md) -/

/-- Add an opcode value to a set of opcode values, kept strictly rising (R170). -/
def mark (op : Byte) : List Byte → List Byte
  | [] => [op]
  | b :: rest => if op.toNat < b.toNat then op :: b :: rest else if op = b then b :: rest else b :: mark op rest

/-- Add cycles (R169). -/
def State.addCycles (n : Nat) (s : State) : State := { s with cycles := s.cycles + n }

/-- What the engine books after an instruction with opcode `op` (R169, R170): base cycles and extra, and the coverage
mark. -/
def State.book (op : Byte) (extra : Nat) (s : State) : State :=
  { s.addCycles ((s.params.cycleRow op).base + extra) with coverage := mark op s.coverage }

/-- Run an instruction's rule with its opcode; a term that no encoding gives is refused (30_encoding.md R66). -/
def withOpcode (i : Instr) (f : Byte → Result) : Result :=
  match i.opcode with
  | some op => f op
  | none => .refused .notEncodable

/-- An instruction that leaves PC to the engine: its effect, then `PC <- wrap16(pc0 + length)` (R168), then the booking. -/
def advanceAfter (i : Instr) (op : Byte) (extra : Nat) (effect : State → State) (s : State) : State :=
  ((effect s).setPc (s.pc + BitVec.ofNat 16 i.length)).book op extra

/-- An Implied instruction that leaves PC to the engine. -/
def execImplied (i : Instr) (effect : State → State) (s : State) : Result :=
  withOpcode i fun op => .next (advanceAfter i op 0 effect s)

/-- The bytes of the instruction at PC, operand bytes as its length requires (R165, 20_memory.md R59). -/
def State.fetchBytes (s : State) : List Byte :=
  (List.range (lookup (s.read s.pc)).mode.length).map fun k => s.read (s.pc + BitVec.ofNat 16 k)

/-- The instruction at PC (R165, R166). -/
def State.fetch (s : State) : Instr :=
  let bytes := s.fetchBytes
  assemble (s.read s.pc) (bytes.getD 1 0) (bytes.getD 2 0)

/-- An NMI is serviced in this step (60_exceptions.md R203). -/
def State.takesNmi (s : State) : Bool := s.nmiLatch

/-- An IRQ is serviced in this step (R203, R202). -/
def State.takesIrq (s : State) : Bool := !s.nmiLatch && s.irqLine && !s.flag .i

/-- The service of an NMI (R204, R205): the latch is cleared before the pushes; 7 cycles. -/
def State.serviceNmi (s : State) : State :=
  (State.interruptEntry nmiVector { s with nmiLatch := false }).addCycles 7

/-- The service of an IRQ (R204, R206): the line is kept; 7 cycles. -/
def State.serviceIrq (s : State) : State := (s.interruptEntry irqVector).addCycles 7

/-- The coverage fraction of a state (R177). -/
def State.coverageFraction (s : State) : CoverageFraction := ⟨s.coverage.length, Config.nLegal⟩

/-- The stuck counter after a step that began at `pcBefore` (R172). -/
def State.nextStuckCount (pcBefore : Word) (s : State) : Nat :=
  if s.pc = pcBefore then min (s.stuckCount + 1) s.params.stuckLimit else 0

/-- `exit_req <- false`, at the start of a step (R162). -/
def State.clearExit (s : State) : State := { s with exitReq := false }

/-- The run state in which a step ends: Exited before Stuck before Continue (R173, R172, R176). -/
def State.endStatus (pcBefore : Word) (s : State) : RunState :=
  if s.exitReq then .exited s.a s.cycles s.coverageFraction
  else if s.nextStuckCount pcBefore ≥ s.params.stuckLimit then .stuck s.pc s.cycles
  else .running

/-- The end of a step (R162): an IllegalOpcode ends it before anything else (R173); then the stuck counter and the
status. -/
def State.endStep (pcBefore : Word) (s : State) : State :=
  match s.runState with
  | .running =>
    { s with stuckCount := s.nextStuckCount pcBefore, runState := s.endStatus pcBefore, exitReq := false }
  | _ => s

end Sys2Proof.Machine
end

