-- ==== Sys2Proof/Machine/Operands.lean ====
section
/-! DEFINITION. The addressing-mode effective-address resolver (40_addressing.md) and the operand helpers of R92. -/

namespace Sys2Proof.Machine

/-- What the resolver returns (R74): the effective address, for the modes that have one, and `crossed`. -/
structure Resolved where
  ea : Option Word
  crossed : Bool
deriving DecidableEq, Repr

/-- The branch target of the Relative mode (R87) from the opcode's address. -/
def relativeTarget (pc0 : Word) (rel8 : Byte) : Word := pc0 + 2 + sext16 rel8

/-- The 16-bit pointer in page 0 whose low byte is at `p` (R85, R86): the second byte's address wraps in page 0. -/
def State.zeroPagePointer (s : State) (p : Byte) : Word := concat (s.read (zext16 (p + 1))) (s.read (zext16 p))

/-- Where JMP indirect reads the high byte of its target (R84). -/
def indirectHighAddr (pageWrap : Bool) (ptr : Word) : Word :=
  if pageWrap then concat (hiByte ptr) (loByte ptr + 1) else ptr + 1

/-- The target that JMP indirect reads through `ptr` (R84). -/
def State.indirectTarget (s : State) (ptr : Word) : Word :=
  concat (s.read (indirectHighAddr s.params.jmpIndPageWrap ptr)) (s.read ptr)

/-- An indexed address: the effective address and whether it leaves the base's page (R82, R83, R86). -/
def indexed (base : Word) (index : Byte) : Resolved :=
  let ea := base + zext16 index
  { ea := some ea, crossed := pageCross base ea }

/-- `EA(mode)` (R75 to R88). -/
def State.resolve (s : State) : Operand → Resolved
  | .implied | .accumulator | .immediate _ => { ea := none, crossed := false }
  | .zeroPage b => { ea := some (zext16 b), crossed := false }
  | .zeroPageX b => { ea := some (zext16 (b + s.x)), crossed := false }
  | .zeroPageY b => { ea := some (zext16 (b + s.y)), crossed := false }
  | .absolute a => { ea := some a, crossed := false }
  | .absoluteX a => indexed a s.x
  | .absoluteY a => indexed a s.y
  | .indirect ptr => { ea := some (s.indirectTarget ptr), crossed := false }
  | .xIndexedIndirect b => { ea := some (s.zeroPagePointer (b + s.x)), crossed := false }
  | .indirectYIndexed b => indexed (s.zeroPagePointer b) s.y
  | .relative b => { ea := some (relativeTarget s.pc b), crossed := false }

/-- The address that a mode which addresses memory reads and writes; none for the modes that have no memory operand.
(Indirect and Relative have a jump target, not a memory operand.) -/
def State.dataAddress (s : State) (o : Operand) : Option Word :=
  match o with
  | .indirect _ | .relative _ => none
  | o => (s.resolve o).ea

/-- `Operand(mode)` (R92): `b1` for Immediate, A for Accumulator, `MemRead(ea, 1)` for a memory mode. -/
def State.operandValue (s : State) (o : Operand) : Option Byte :=
  match o with
  | .immediate b => some b
  | .accumulator => some s.a
  | o => (s.dataAddress o).map s.read

/-- `StoreOperand(mode, v)` (R92): A for Accumulator, `MemWrite(ea, 1, v)` for a memory mode. -/
def State.storeOperand (s : State) (o : Operand) (v : Byte) : Option State :=
  match o with
  | .accumulator => some (s.setA v)
  | o => (s.dataAddress o).map fun ea => s.write ea v

/-- An instruction that reads its operand: `v <- Operand(mode)`, then `effect v`; one more cycle for penalty class
`page` on a page cross (R89). -/
def execRead (i : Instr) (o : Operand) (effect : Byte → State → State) (s : State) : Result :=
  withOpcode i fun op =>
    match s.operandValue o with
    | some v => .next (advanceAfter i op (s.params.pageExtra op (s.resolve o).crossed) (effect v) s)
    | none => .refused .notEncodable

/-- A store: `EA(mode); StoreOperand(mode, v)` with no data read (R92). Its opcode's penalty class is none in the NMOS
table (R90). -/
def execStore (i : Instr) (o : Operand) (v : Byte) (s : State) : Result :=
  withOpcode i fun op =>
    match s.storeOperand o v with
    | some s' => .next (advanceAfter i op (s.params.pageExtra op (s.resolve o).crossed) (fun _ => s') s)
    | none => .refused .notEncodable

/-- `RMW(mode, f)` (R92): one read, the computation, one write to the address resolved once. Its opcode's penalty class
is none in the NMOS table (R91). -/
def execRmw (i : Instr) (o : Operand) (f : Rmw) (s : State) : Result :=
  withOpcode i fun op =>
    match s.operandValue o with
    | some v =>
      let (r, p) := f v s.p
      match s.storeOperand o r with
      | some s' =>
        .next (advanceAfter i op (s.params.pageExtra op (s.resolve o).crossed) (fun _ => s'.updateP fun _ => p) s)
      | none => .refused .notEncodable
    | none => .refused .notEncodable

end Sys2Proof.Machine
end

