-- ==== Sys2Proof/Machine/Arith.lean ====
section
/-! DEFINITION. Arithmetic, logic, compare, bit test, increment and decrement (42_arith_logic.md). -/

namespace Sys2Proof.Machine

/-- The accumulator and N, V, Z, C from an ALU result. -/
def State.putAlu (r : AluResult) (s : State) : State := (s.setA r.value).updateP r.putFlags

/-- ADC (R114): binary when D is clear (R108), decimal when set (R109). -/
def execAdc (o : Operand) (s : State) : Result :=
  execRead (.adc o) o (fun v s =>
    s.putAlu (if s.flag .d then adcDecimal s.a v (s.flag .c) else adcBinary s.a v (s.flag .c))) s

/-- SBC (R115): binary when D is clear (R110), decimal when set (R111). -/
def execSbc (o : Operand) (s : State) : Result :=
  execRead (.sbc o) o (fun v s =>
    s.putAlu (if s.flag .d then sbcDecimal s.a v (s.flag .c) else sbcBinary s.a v (s.flag .c))) s

/-- AND (R116). -/
def execAnd (o : Operand) (s : State) : Result :=
  execRead (.and o) o (fun v s => (s.setA (s.a &&& v)).setNZ (s.a &&& v)) s

/-- ORA (R117). -/
def execOra (o : Operand) (s : State) : Result :=
  execRead (.ora o) o (fun v s => (s.setA (s.a ||| v)).setNZ (s.a ||| v)) s

/-- EOR (R118). -/
def execEor (o : Operand) (s : State) : Result :=
  execRead (.eor o) o (fun v s => (s.setA (s.a ^^^ v)).setNZ (s.a ^^^ v)) s

/-- CMP (R119, R107). -/
def execCmp (o : Operand) (s : State) : Result :=
  execRead (.cmp o) o (fun v s => s.updateP (putCompare s.a v)) s

/-- CPX (R120, R107). -/
def execCpx (o : Operand) (s : State) : Result :=
  execRead (.cpx o) o (fun v s => s.updateP (putCompare s.x v)) s

/-- CPY (R121, R107). -/
def execCpy (o : Operand) (s : State) : Result :=
  execRead (.cpy o) o (fun v s => s.updateP (putCompare s.y v)) s

/-- BIT (R122, R112). -/
def execBit (o : Operand) (s : State) : Result :=
  execRead (.bit o) o (fun v s => s.updateP (putBitTest s.a v)) s

/-- INC (R123). -/
def execInc (o : Operand) (s : State) : Result := execRmw (.inc o) o increment s

/-- DEC (R124). -/
def execDec (o : Operand) (s : State) : Result := execRmw (.dec o) o decrement s

/-- INX (R125). -/
def execInx (s : State) : Result :=
  execImplied .inx (fun s => (s.setX (s.x + 1)).setNZ (s.x + 1)) s

/-- INY (R126). -/
def execIny (s : State) : Result :=
  execImplied .iny (fun s => (s.setY (s.y + 1)).setNZ (s.y + 1)) s

/-- DEX (R127). -/
def execDex (s : State) : Result :=
  execImplied .dex (fun s => (s.setX (s.x - 1)).setNZ (s.x - 1)) s

/-- DEY (R128). -/
def execDey (s : State) : Result :=
  execImplied .dey (fun s => (s.setY (s.y - 1)).setNZ (s.y - 1)) s

end Sys2Proof.Machine
end

