-- ==== Sys2Proof/Machine/Vsr.lean ====
section
/-! DEFINITION. The VSR hook (48_execution_engine.md R174 to R176): what an invoked callback does, and the check that JMP
and JSR run. -/

namespace Sys2Proof.Machine

/-- The byte a callback's act takes. -/
def State.vsrValue (s : State) : VsrVal → Byte
  | .const v => v
  | .reg .a => s.a
  | .reg .x => s.x
  | .reg .y => s.y
  | .reg .s => s.sp
  | .reg .p => s.readP
  | .mem addr => s.read addr

/-- A callback writes a register; P as a whole, so bit 5 stays 1 (10_state.md R24). -/
def State.vsrSetReg (r : VsrReg) (v : Byte) (s : State) : State :=
  match r with
  | .a => s.setA v
  | .x => s.setX v
  | .y => s.setY v
  | .s => s.setS v
  | .p => s.setP v

/-- One act of a callback (R175): registers, PC and memory may change, exit may be requested (R176); a change of engine
state is refused. -/
def vsrAct (act : VsrAct) (s : State) : Result :=
  match act with
  | .setReg r v => .next (s.vsrSetReg r (s.vsrValue v))
  | .setPc w => .next (s.setPc w)
  | .poke addr v => .next (s.write addr (s.vsrValue v))
  | .requestExit => .next { s with exitReq := true }
  | .touchEngine part => .refused (.callbackTouchesEngine part)

/-- The acts of a callback in order, up to the first that is refused. -/
def vsrActs : List VsrAct → State → Result
  | [], s => .next s
  | act :: rest, s =>
    match vsrAct act s with
    | .next s' => vsrActs rest s'
    | .fault r => .fault r
    | .refused r => .refused r

/-- What a callback does when invoked in a state: the acts the launch gave, or the free answer of host software of
unknown body (log 4). -/
def State.callbackActs (s : State) : Callback → List VsrAct
  | .known acts => acts
  | .unknown id => Config.hostCallback id s.vsrCalls s.registers s.mem

/-- `HostCallback(vsr[target])` (R175), counted. -/
def invokeCallback (cb : Callback) (s : State) : Result :=
  vsrActs (s.callbackActs cb) { s with vsrCalls := s.vsrCalls + 1 }

/-- `VsrCheck(target, is_jsr)` (R175): the callback of a registered target, then, for JSR, the simulated RTS. -/
def vsrCheck (target : Word) (isJsr : Bool) (s : State) : Result :=
  match s.vsr.lookup target with
  | none => .next s
  | some cb =>
    match invokeCallback cb s with
    | .next s' => .next (if isJsr then s'.returnFromSubroutine else s')
    | .fault r => .fault r
    | .refused r => .refused r

/-- A jump that ends in a VSR check, then the booking of its opcode (R143, R144, R169, R170). -/
def bookAfterVsr (op : Byte) (target : Word) (isJsr : Bool) (s : State) : Result :=
  match vsrCheck target isJsr s with
  | .next s' => .next (s'.book op 0)
  | .fault r => .fault r
  | .refused r => .refused r

end Sys2Proof.Machine
end

