-- ==== Sys2Proof/Machine/Control.lean ====
section
/-! DEFINITION. Control transfer (44_control.md), and the illegal opcode (48_execution_engine.md R171). Each sets PC itself (R168). -/

namespace Sys2Proof.Machine

/-- `Branch(cond)` (R134): PC and the extra cycles, 1 when taken and 1 more when the target is on another page than the
next instruction. -/
def execBranch (i : Instr) (cond : Bool) (rel8 : Byte) (s : State) : Result :=
  withOpcode i fun op =>
    let next := s.pc + 2
    let target := relativeTarget s.pc rel8
    if cond then .next ((s.setPc target).book op (1 + if pageCross next target then 1 else 0))
    else .next ((s.setPc next).book op 0)

/-- BCC, branch if carry clear (R135). -/
def execBcc (rel8 : Byte) (s : State) : Result := execBranch (.bcc rel8) (!s.flag .c) rel8 s

/-- BCS, branch if carry set (R136). -/
def execBcs (rel8 : Byte) (s : State) : Result := execBranch (.bcs rel8) (s.flag .c) rel8 s

/-- BEQ, branch if zero set (R137). -/
def execBeq (rel8 : Byte) (s : State) : Result := execBranch (.beq rel8) (s.flag .z) rel8 s

/-- BMI, branch if negative set (R138). -/
def execBmi (rel8 : Byte) (s : State) : Result := execBranch (.bmi rel8) (s.flag .n) rel8 s

/-- BNE, branch if zero clear (R139). -/
def execBne (rel8 : Byte) (s : State) : Result := execBranch (.bne rel8) (!s.flag .z) rel8 s

/-- BPL, branch if negative clear (R140). -/
def execBpl (rel8 : Byte) (s : State) : Result := execBranch (.bpl rel8) (!s.flag .n) rel8 s

/-- BVC, branch if overflow clear (R141). -/
def execBvc (rel8 : Byte) (s : State) : Result := execBranch (.bvc rel8) (!s.flag .v) rel8 s

/-- BVS, branch if overflow set (R142). -/
def execBvs (rel8 : Byte) (s : State) : Result := execBranch (.bvs rel8) (s.flag .v) rel8 s

/-- JMP (R143): Absolute, or Indirect through its pointer (R84); then the VSR check. -/
def execJmp (o : Operand) (s : State) : Result :=
  withOpcode (.jmp o) fun op =>
    match (s.resolve o).ea with
    | some target => bookAfterVsr op target false (s.setPc target)
    | none => .refused .notEncodable

/-- JSR (R144): push `pc0 + 2`, set PC, then the VSR check. -/
def execJsr (target : Word) (s : State) : Result :=
  withOpcode (.jsr target) fun op => bookAfterVsr op target true ((s.pushWord (s.pc + 2)).setPc target)

/-- RTS (R145). -/
def execRts (s : State) : Result := withOpcode .rts fun op => .next (s.returnFromSubroutine.book op 0)

/-- RTI (R146). -/
def execRti (s : State) : Result := withOpcode .rti fun op => .next (s.returnFromInterrupt.book op 0)

/-- BRK (R147): the interrupt sequence through the IRQ/BRK vector with return address `pc0 + 2` and pushed status
`P | 0x30`; B is set too. The padding byte at `pc0 + 1` is read and discarded (Machine/Accesses.lean). -/
def execBrk (s : State) : Result :=
  withOpcode .brk fun op =>
    .next (((s.takeInterrupt irqVector (s.pc + 2) (s.readP ||| 0x30)).setFlag .b true).book op 0)

/-- An illegal opcode (R171, 60_exceptions.md R199): PC passes the byte, the status becomes the run state, nothing else
changes. -/
def execIllegal (opcode : Byte) (s : State) : Result :=
  withOpcode (.illegal opcode) fun op =>
    .next { s.setPc (s.pc + 1) with runState := .illegalOpcode s.pc op }

end Sys2Proof.Machine
end

