-- ==== Sys2Proof/Machine/LoadStore.lean ====
section
/-! DEFINITION. Loads, stores and register transfers (41_load_store_transfer.md). -/

namespace Sys2Proof.Machine

/-- LDA, load accumulator (R94). -/
def execLda (o : Operand) (s : State) : Result :=
  execRead (.lda o) o (fun v s => (s.setA v).setNZ v) s

/-- LDX, load X (R95). -/
def execLdx (o : Operand) (s : State) : Result :=
  execRead (.ldx o) o (fun v s => (s.setX v).setNZ v) s

/-- LDY, load Y (R96). -/
def execLdy (o : Operand) (s : State) : Result :=
  execRead (.ldy o) o (fun v s => (s.setY v).setNZ v) s

/-- STA, store (R97). -/
def execSta (o : Operand) (s : State) : Result := execStore (.sta o) o s.a s

/-- STX, store (R98). -/
def execStx (o : Operand) (s : State) : Result := execStore (.stx o) o s.x s

/-- STY, store (R99). -/
def execSty (o : Operand) (s : State) : Result := execStore (.sty o) o s.y s

/-- TAX (R100): flags NZ of the value moved. -/
def execTax (s : State) : Result :=
  execImplied .tax (fun s => (s.setX s.a).setNZ s.a) s

/-- TAY (R101): flags NZ of the value moved. -/
def execTay (s : State) : Result :=
  execImplied .tay (fun s => (s.setY s.a).setNZ s.a) s

/-- TXA (R102): flags NZ of the value moved. -/
def execTxa (s : State) : Result :=
  execImplied .txa (fun s => (s.setA s.x).setNZ s.x) s

/-- TYA (R103): flags NZ of the value moved. -/
def execTya (s : State) : Result :=
  execImplied .tya (fun s => (s.setA s.y).setNZ s.y) s

/-- TSX (R104): flags NZ of the value moved. -/
def execTsx (s : State) : Result :=
  execImplied .tsx (fun s => (s.setX s.sp).setNZ s.sp) s

/-- TXS (R105): no flag changes. -/
def execTxs (s : State) : Result := execImplied .txs (fun s => s.setS s.x) s

end Sys2Proof.Machine
end

