-- ==== Sys2Proof/Machine/Shift.lean ====
section
/-! DEFINITION. Shifts and rotates (43_shift_rotate.md), on A and on memory. -/

namespace Sys2Proof.Machine

/-- ASL, arithmetic shift left (R130). -/
def execAsl (o : Operand) (s : State) : Result := execRmw (.asl o) o shiftLeft s

/-- LSR, logical shift right (R131). -/
def execLsr (o : Operand) (s : State) : Result := execRmw (.lsr o) o shiftRight s

/-- ROL, rotate left through carry (R132). -/
def execRol (o : Operand) (s : State) : Result := execRmw (.rol o) o rotateLeft s

/-- ROR, rotate right through carry (R133). -/
def execRor (o : Operand) (s : State) : Result := execRmw (.ror o) o rotateRight s

end Sys2Proof.Machine
end

