-- ==== Sys2Proof/Machine/StackFlags.lean ====
section
/-! DEFINITION. Stack, flag and no-operation instructions (45_stack_flags_misc.md). -/

namespace Sys2Proof.Machine

/-- PHA (R149). -/
def execPha (s : State) : Result := execImplied .pha (fun s => s.push s.a) s

/-- PHP (R150): bits 5 and 4 are set in the pushed copy; P itself is kept. -/
def execPhp (s : State) : Result := execImplied .php (fun s => s.push (s.readP ||| 0x30)) s

/-- PLA (R151). -/
def execPla (s : State) : Result :=
  execImplied .pla (fun s =>
    let (v, s) := s.pull
    (s.setA v).setNZ v) s

/-- PLP (R152): every bit of P from the pulled byte but bit 5, which stays 1. -/
def execPlp (s : State) : Result :=
  execImplied .plp (fun s =>
    let (v, s) := s.pull
    s.setP v) s

/-- CLC (R153). -/
def execClc (s : State) : Result := execImplied .clc (State.setFlag .c false) s

/-- CLD (R154). -/
def execCld (s : State) : Result := execImplied .cld (State.setFlag .d false) s

/-- CLI (R155). -/
def execCli (s : State) : Result := execImplied .cli (State.setFlag .i false) s

/-- CLV (R156). -/
def execClv (s : State) : Result := execImplied .clv (State.setFlag .v false) s

/-- SEC (R157). -/
def execSec (s : State) : Result := execImplied .sec (State.setFlag .c true) s

/-- SED (R158). -/
def execSed (s : State) : Result := execImplied .sed (State.setFlag .d true) s

/-- SEI (R159). -/
def execSei (s : State) : Result := execImplied .sei (State.setFlag .i true) s

/-- NOP (R160): nothing changes but PC and the booking. -/
def execNop (s : State) : Result := execImplied .nop (fun s => s) s

end Sys2Proof.Machine
end

