-- ==== Sys2Proof/Machine/Step.lean ====
section
/-! DEFINITION. One `step()` (48_execution_engine.md R162). -/

namespace Sys2Proof.Machine

/-- The end of a step over what the instruction answered. -/
def finish (pcBefore : Word) : Result → Result
  | .next s => .next (s.endStep pcBefore)
  | .fault r => .fault r
  | .refused r => .refused r

/-- A step of a running CPU: NMI before IRQ before the instruction at PC (60_exceptions.md R203). -/
def stepRunning (s : State) : Result :=
  if s.takesNmi then finish s.pc (.next s.serviceNmi)
  else if s.takesIrq then finish s.pc (.next s.serviceIrq)
  else finish s.pc (exec s.fetch s)

/-- `step()` (R162): refused when not powered (R163); in a terminal run state nothing changes and the status stays
(R178). -/
def step (s : State) : Host.Outcome State Fault Refusal :=
  if s.powered then
    match s.runState with
    | .running => stepRunning s.clearExit
    | _ => .next s
  else .refused .notPowered

/-- `s` with the table word `w` of `nbits` bits as its next instruction: its bytes at PC (the bits above `nbits` zero),
and the CPU powered, running and with no interrupt to service, so that the next step fetches it (log 3). -/
def State.withFetchWord (s : State) (nbits w : Nat) : State :=
  let cells := (tableBytes nbits w).zipIdx.map fun (b, k) => (s.pc + BitVec.ofNat 16 k, b)
  { s with mem := s.mem.writeAll cells, powered := true, runState := .running, nmiLatch := false, irqLine := false }

end Sys2Proof.Machine
end

