-- ==== Sys2Proof/Machine/Accesses.lean ====
section
/-! DEFINITION. The access sequence of a step on the memory port (20_memory.md R52, 40_addressing.md R92): which bytes the
core reads and writes, in order. Reads have no side effect (R44), so State cannot show it; it is a function of the
state the step begins in. -/

namespace Sys2Proof.Machine

/-- One access on the memory port, or the point where a VSR callback runs (its own reads and writes are the host's,
48_execution_engine.md R182, and are not listed). -/
inductive Access where
  | read (addr : Word)
  | write (addr : Word) (v : Byte)
  | callback (target : Word)
deriving DecidableEq, Repr

/-- A 16-bit read: low byte first (R46). -/
def read16Accesses (addr : Word) : List Access := [.read addr, .read (addr + 1)]

/-- Pushes of the bytes listed, from stack pointer `sp` on (R48). -/
def pushAccesses (sp : Byte) : List Byte → List Access
  | [] => []
  | v :: rest => .write (stackAddr sp) v :: pushAccesses (sp - 1) rest

/-- `n` pulls from stack pointer `sp` on (R49). -/
def pullAccesses (sp : Byte) : Nat → List Access
  | 0 => []
  | n + 1 => .read (stackAddr (sp + 1)) :: pullAccesses (sp + 1) n

/-- The fetch: the opcode, then the operand bytes the length calls for (R165). -/
def State.fetchAccesses (s : State) : List Access :=
  (List.range (lookup (s.read s.pc)).mode.length).map fun k => .read (s.pc + BitVec.ofNat 16 k)

/-- The pointer reads of a mode, low byte first (R84, R85, R86). -/
def State.pointerAccesses (s : State) : Operand → List Access
  | .xIndexedIndirect b => [.read (zext16 (b + s.x)), .read (zext16 (b + s.x + 1))]
  | .indirectYIndexed b => [.read (zext16 b), .read (zext16 (b + 1))]
  | .indirect ptr => [.read ptr, .read (indirectHighAddr s.params.jmpIndPageWrap ptr)]
  | _ => []

/-- The data read of `Operand(mode)` (R92): none for Immediate and Accumulator. -/
def State.dataRead (s : State) (o : Operand) : List Access :=
  match s.dataAddress o with
  | some ea => [.read ea]
  | none => []

/-- The data write of `StoreOperand(mode, v)` (R92): none for Accumulator. -/
def State.dataWrite (s : State) (o : Operand) (v : Byte) : List Access :=
  match s.dataAddress o with
  | some ea => [.write ea v]
  | none => []

/-- A read instruction: pointer reads and one data read. -/
def State.readAccesses (s : State) (o : Operand) : List Access := s.pointerAccesses o ++ s.dataRead o

/-- A store: pointer reads and one data write; the target is not read. -/
def State.storeAccesses (s : State) (o : Operand) (v : Byte) : List Access := s.pointerAccesses o ++ s.dataWrite o v

/-- A read-modify-write: pointer reads, one data read, one data write. -/
def State.rmwAccesses (s : State) (o : Operand) (f : Rmw) : List Access :=
  s.pointerAccesses o ++ s.dataRead o ++
  match s.operandValue o with
  | some v => s.dataWrite o (f v s.p).1
  | none => []

/-- The VSR check of JMP and JSR with stack pointer `sp`: for a registered target the callback's point and, for JSR, the
two pulls of the simulated RTS (R175), from the stack pointer the callback leaves. -/
def State.vsrAccesses (s : State) (target : Word) (isJsr : Bool) : List Access :=
  match s.vsr.lookup target with
  | none => []
  | some cb =>
    .callback target ::
    match isJsr, invokeCallback cb ((s.pushWord (s.pc + 2)).setPc target) with
    | true, .next s' => pullAccesses s'.sp 2
    | _, _ => []

/-- The accesses of an instruction after its fetch, in the order of its rule. -/
def State.instrAccesses (s : State) : Instr → List Access
  | .adc o | .sbc o | .and o | .ora o | .eor o | .cmp o | .cpx o | .cpy o | .bit o => s.readAccesses o
  | .lda o | .ldx o | .ldy o => s.readAccesses o
  | .sta o => s.storeAccesses o s.a
  | .stx o => s.storeAccesses o s.x
  | .sty o => s.storeAccesses o s.y
  | .asl o => s.rmwAccesses o shiftLeft
  | .lsr o => s.rmwAccesses o shiftRight
  | .rol o => s.rmwAccesses o rotateLeft
  | .ror o => s.rmwAccesses o rotateRight
  | .inc o => s.rmwAccesses o increment
  | .dec o => s.rmwAccesses o decrement
  | .jmp o => s.pointerAccesses o ++ match (s.resolve o).ea with
    | some target => s.vsrAccesses target false
    | none => []
  | .jsr target => pushAccesses s.sp [hiByte (s.pc + 2), loByte (s.pc + 2)] ++ s.vsrAccesses target true
  | .rts => pullAccesses s.sp 2
  | .rti => pullAccesses s.sp 3
  | .brk =>
    .read (s.pc + 1) :: pushAccesses s.sp [hiByte (s.pc + 2), loByte (s.pc + 2), s.readP ||| 0x30] ++
      read16Accesses irqVector
  | .pha => pushAccesses s.sp [s.a]
  | .php => pushAccesses s.sp [s.readP ||| 0x30]
  | .pla | .plp => pullAccesses s.sp 1
  | .bcc _ | .bcs _ | .beq _ | .bmi _ | .bne _ | .bpl _ | .bvc _ | .bvs _ => []
  | .clc | .cld | .cli | .clv | .sec | .sed | .sei | .nop => []
  | .tax | .tay | .tsx | .txa | .txs | .tya | .inx | .iny | .dex | .dey => []
  | .illegal _ => []

/-- The accesses of an interrupt entry (60_exceptions.md R204). -/
def State.interruptAccesses (s : State) (vector : Word) : List Access :=
  pushAccesses s.sp [hiByte s.pc, loByte s.pc, (s.readP &&& 0xEF) ||| bit5] ++ read16Accesses vector

/-- The accesses of the step that begins in this state (R52); a refused step and a step in a terminal run state make
none (R163, R178). -/
def State.stepAccesses (s : State) : List Access :=
  if s.powered then
    match s.runState with
    | .running =>
      if s.takesNmi then s.interruptAccesses nmiVector
      else if s.takesIrq then s.interruptAccesses irqVector
      else s.fetchAccesses ++ s.instrAccesses s.fetch
    | _ => []
  else []

/-- The bytes a list of accesses writes, in order. -/
def writesOf : List Access → List (Word × Byte)
  | [] => []
  | .write a v :: rest => (a, v) :: writesOf rest
  | _ :: rest => writesOf rest

end Sys2Proof.Machine
end

