-- ==== Sys2Proof/Machine/Disassembler.lean ====
section
/-! DEFINITION. The disassembler decoder (49_disassembler.md): a function of its arguments alone (R196). -/

namespace Sys2Proof.Machine

/-- A Disassembly, the 5-tuple (dump, symbol, mnemonic+operand, comment, length) (R186). -/
structure Disassembly where
  dump : String
  symbol : String
  text : String
  comment : String
  length : Nat
deriving DecidableEq, Repr

/-- The caller's finite map from address to label (R186); the first entry of an address counts. -/
abbrev Symbols := List (Nat × String)

/-- A lower-case hexadecimal digit (R188). -/
def hexDigit (n : Nat) : Char :=
  ['0', '1', '2', '3', '4', '5', '6', '7', '8', '9', 'a', 'b', 'c', 'd', 'e', 'f'].getD n '0'

/-- Two lower-case hexadecimal digits (R188, R190). -/
def hexByte (b : Byte) : String := String.ofList [hexDigit (b.toNat / 16), hexDigit (b.toNat % 16)]

/-- Four lower-case hexadecimal digits (R190, R191). -/
def hexWord (w : Word) : String := hexByte (hiByte w) ++ hexByte (loByte w)

/-- Dump(bytes) (R188). -/
def dumpText : List Byte → String
  | [] => ""
  | [b] => hexByte b
  | b :: rest => hexByte b ++ " " ++ dumpText rest

/-- A mnemonic in lower case (R190), and `illegal` (R192). -/
def mnemonicText : Mnemonic → String
  | .adc => "adc"
  | .and => "and"
  | .asl => "asl"
  | .bcc => "bcc"
  | .bcs => "bcs"
  | .beq => "beq"
  | .bit => "bit"
  | .bmi => "bmi"
  | .bne => "bne"
  | .bpl => "bpl"
  | .brk => "brk"
  | .bvc => "bvc"
  | .bvs => "bvs"
  | .clc => "clc"
  | .cld => "cld"
  | .cli => "cli"
  | .clv => "clv"
  | .cmp => "cmp"
  | .cpx => "cpx"
  | .cpy => "cpy"
  | .dec => "dec"
  | .dex => "dex"
  | .dey => "dey"
  | .eor => "eor"
  | .inc => "inc"
  | .inx => "inx"
  | .iny => "iny"
  | .jmp => "jmp"
  | .jsr => "jsr"
  | .lda => "lda"
  | .ldx => "ldx"
  | .ldy => "ldy"
  | .lsr => "lsr"
  | .nop => "nop"
  | .ora => "ora"
  | .pha => "pha"
  | .php => "php"
  | .pla => "pla"
  | .plp => "plp"
  | .rol => "rol"
  | .ror => "ror"
  | .rti => "rti"
  | .rts => "rts"
  | .sbc => "sbc"
  | .sec => "sec"
  | .sed => "sed"
  | .sei => "sei"
  | .sta => "sta"
  | .stx => "stx"
  | .sty => "sty"
  | .tax => "tax"
  | .tay => "tay"
  | .tsx => "tsx"
  | .txa => "txa"
  | .txs => "txs"
  | .tya => "tya"
  | .illegal => "illegal"

/-- The operand text of a mode (R190), from the instruction's operand bytes; none where the mode has no operand text. -/
def operandText (mode : Mode) (b1 b2 : Byte) : Option String :=
  match mode with
  | .none | .implied => none
  | .accumulator => some "a"
  | .immediate => some ("#$" ++ hexByte b1)
  | .zeroPage => some ("$" ++ hexByte b1)
  | .zeroPageX => some ("$" ++ hexByte b1 ++ ",x")
  | .zeroPageY => some ("$" ++ hexByte b1 ++ ",y")
  | .xIndexedIndirect => some ("($" ++ hexByte b1 ++ ",x)")
  | .indirectYIndexed => some ("($" ++ hexByte b1 ++ "),y")
  | .relative => some ("$" ++ hexByte b1)
  | .absolute => some ("$" ++ hexWord (concat b2 b1))
  | .absoluteX => some ("$" ++ hexWord (concat b2 b1) ++ ",x")
  | .absoluteY => some ("$" ++ hexWord (concat b2 b1) ++ ",y")
  | .indirect => some ("($" ++ hexWord (concat b2 b1) ++ ")")

/-- Text(mn, mode, bytes) (R190, R192). -/
def instrText (e : OpcodeEntry) (b1 b2 : Byte) : String :=
  match operandText e.mode b1 b2 with
  | some t => mnemonicText e.mnemonic ++ " " ++ t
  | none => mnemonicText e.mnemonic

/-- Comment(mode, addr, bytes) (R191): the target of a Relative instruction, as the core computes it (R87). -/
def commentText (mode : Mode) (addr : Nat) (b1 : Byte) : String :=
  match mode with
  | .relative => "$" ++ hexWord (relativeTarget (BitVec.ofNat 16 addr) b1)
  | _ => ""

/-- InSegment(a) (R194). -/
def inSegment (seg : Segment) (a : Nat) : Bool := decide (seg.lo ≤ a) && decide (a ≤ seg.hi)

/-- An address the disassembler may read: in the segment and not past 0xFFFF (R187, R194). -/
def readableIn (seg : Segment) (a : Nat) : Bool := inSegment seg a && decide (a ≤ 0xFFFF)

/-- `decode_one(addr, memory, symbols)` (R187 to R194) under the segment `seg`. -/
def decodeOne (seg : Segment) (addr : Nat) (mem : Memory) (symbols : Symbols) : Except Fault Disassembly :=
  if readableIn seg addr then
    let e := lookup (mem.read addr)
    let n := e.mode.length
    if (List.range n).all fun k => readableIn seg (addr + k) then
      let bytes := (List.range n).map fun k => mem.read (addr + k)
      let b1 := bytes.getD 1 0
      let b2 := bytes.getD 2 0
      .ok { dump := dumpText bytes, symbol := (symbols.lookup addr).getD "", text := instrText e b1 b2,
            comment := commentText e.mode addr b1, length := n }
    else .error (.outOfRange addr)
  else .error (.outOfRange addr)

/-- The loop of R195 from `cur` up to `stop`; each length is at least 1, so `stop - cur` turns suffice. -/
def decodeFrom (seg : Segment) (mem : Memory) (symbols : Symbols) (stop : Nat) :
    Nat → Nat → List (Except Fault Disassembly)
  | 0, _ => []
  | turns + 1, cur =>
    if cur < stop then
      match decodeOne seg cur mem symbols with
      | .error e => [.error e]
      | .ok d => .ok d :: decodeFrom seg mem symbols stop turns (cur + d.length)
    else []

/-- `decode_region(addr, len, memory, symbols)` (R195) under the segment `seg`. -/
def decodeRegion (seg : Segment) (addr len : Nat) (mem : Memory) (symbols : Symbols) :
    List (Except Fault Disassembly) :=
  decodeFrom seg mem symbols (addr + len) len addr

end Sys2Proof.Machine
end

