-- ==== Sys2Proof/Machine/HostCalls.lean ====
section
/-! DEFINITION. The host's calls between steps (48_execution_engine.md R174, R179 to R182; 70_reset_and_hazards.md R221 to
R223). step() is Machine/Step.lean, run(n) Machine/Run.lean. -/

namespace Sys2Proof.Machine

/-- `power(true)` (R221): every register and every piece of engine state to its power-on value (10_state.md R40);
memory and the launch's parameters are kept, and the model's own counter goes on (log 5). -/
def powerOn (s : State) : State := { State.construct s.mem s.params with vsrCalls := s.vsrCalls }

/-- `power(false)` (R222). -/
def powerOff (s : State) : State := { s with powered := false }

/-- `reset()` (R223): refused when not powered; keeps cycles, coverage, vsr and irq_line. -/
def hostReset (s : State) : Result :=
  if s.powered then
    let s' := { s with a := 0x00, x := 0x00, y := 0x00, sp := 0xFD, p := 0x36, nmiLatch := false, stuckCount := 0,
                       runState := .running }
    .next (s'.setPc (s'.read16 resetVector))
  else .refused .notPowered

/-- `nmi()` (R180). -/
def nmi (s : State) : State := { s with nmiLatch := true }

/-- `irq(b)` (R181). -/
def irq (level : Bool) (s : State) : State := { s with irqLine := level }

/-- Add or replace an entry of the VSR registry, kept strictly rising (R174). -/
def putVsr (addr : Word) (cb : Callback) : List (Word × Callback) → List (Word × Callback)
  | [] => [(addr, cb)]
  | (k, c) :: rest =>
    if k.toNat < addr.toNat then (k, c) :: putVsr addr cb rest
    else if k = addr then (addr, cb) :: rest
    else (addr, cb) :: (k, c) :: rest

/-- `register_vsr(addr, callback)` (R174). -/
def registerVsr (addr : Word) (cb : Callback) (s : State) : State := { s with vsr := putVsr addr cb s.vsr }

/-- `read_registers()` (R179, 10_state.md R39): a snapshot; the state is not changed. -/
def readRegisters (s : State) : Registers := s.registers

/-- The host reads a byte of its memory between steps (R182, 20_memory.md R56). -/
def hostRead (addr : Word) (s : State) : Byte := s.read addr

/-- The host writes a byte of its memory between steps (R182, 20_memory.md R56). -/
def hostWrite (addr : Word) (v : Byte) (s : State) : State := s.write addr v

end Sys2Proof.Machine
end

