-- ==== Sys2Proof/Machine/Run.lean ====
section
/-! DEFINITION. `run(n)`, the run-for-cycles entry point (48_execution_engine.md R183). -/

namespace Sys2Proof.Machine

/-- What a run that ends gives: a status (`running` read as Continue) and the state it leaves, or the reason a step
stopped. -/
inductive RunResult where
  | returned (status : RunState) (s : State)
  | fault (r : Fault)
  | refused (r : Refusal)
deriving DecidableEq, Repr

/-- The loop of R183 for a run that began at cycle count `start`, followed for at most `fuel` steps; `none` when they do
not end it. -/
def runLoop (start n : Nat) : Nat → State → Option RunResult
  | 0, _ => none
  | fuel + 1, s =>
    match step s with
    | .fault r => some (.fault r)
    | .refused r => some (.refused r)
    | .next s' =>
      if s'.runState ≠ .running then some (.returned s'.runState s')
      else if s'.cycles - start ≥ n then some (.returned .running s')
      else runLoop start n fuel s'

/-- `run(n)` followed for at most `fuel` steps: what it gives if it ends within them. -/
def runWithin (fuel n : Nat) (s : State) : Option RunResult := runLoop s.cycles n fuel s

/-- `run(n)` called in `s` gives `r` (R183): its loop ends, after however many steps, with `r`. A loop that never ends,
as a CYCLE_TABLE with free instructions allows, gives nothing (log 15). -/
def RunGives (n : Nat) (s : State) (r : RunResult) : Prop := ∃ fuel, runWithin fuel n s = some r

end Sys2Proof.Machine
end

