-- ==== Sys2Proof/Safety.lean ====
section
/-! DEFINITION. What the state of a CPU that only steps and host calls have changed satisfies, and what a safe step is. -/

namespace Sys2Proof.Machine

/-- Strictly rising opcode values, all legal: the canonical form of the coverage set (10_state.md R35). -/
def coverageWf (l : List Byte) : Bool :=
  l.Pairwise (fun b c => b.toNat < c.toNat) && l.all fun b => !isIllegal b

/-- Strictly rising addresses: the canonical form of the VSR registry (10_state.md R36). -/
def vsrWf (l : List (Word × Callback)) : Bool :=
  l.Pairwise (fun e f => e.1.toNat < f.1.toNat)

/-- The invariant between steps: memory, coverage and registry in canonical form, bit 5 of P set (10_state.md R24),
the stuck counter within its limit (R33), below it while Running (48_execution_engine.md R172), and no exit request
pending (R162). -/
structure State.Inv (s : State) : Prop where
  mem : s.mem.wf = true
  bit5 : s.p.getLsbD 5 = true
  coverage : coverageWf s.coverage = true
  vsr : vsrWf s.vsr = true
  stuck : s.stuckCount ≤ s.params.stuckLimit
  running : s.runState = .running → 0 < s.params.stuckLimit → s.stuckCount < s.params.stuckLimit
  exitReq : s.exitReq = false

/-- A step of the machine that goes on: it answers a next state. -/
def State.StepsOn (s : State) : Prop := ∃ t, step s = .next t

/-- No registered callback of a state invokes what the model refuses: each has its acts given by the launch, and none of
them changes engine state (48_execution_engine.md R175). -/
def State.callbacksKeepOut (s : State) : Bool :=
  s.vsr.all fun e =>
    match e.2 with
    | .known acts => acts.all fun act =>
        match act with
        | .touchEngine _ => false
        | _ => true
    | .unknown _ => false

end Sys2Proof.Machine
end

