-- ==== Sys2Proof/Certificates/Slice0/Obligations.lean ====
section
/-! DEFINITION. The statements for the provers. Each docstring says which rule of spec/ it formalises. -/

open Sys2Proof Sys2Proof.Machine

namespace Sys2Proof.Claims

/-- The opcode byte of an instruction, the first byte of its encoding. -/
def opcodeByte (i : Instr) : Byte := (encode i).headD 0

/-- The instructions `mk o` are encodable in exactly the modes of `rows`, with the opcodes of `rows`. -/
def encodedAs (mk : Operand → Instr) (rows : List (Mode × Byte)) : Prop :=
  ∀ o : Operand, ((mk o).wf = true ↔ o.mode ∈ rows.map Prod.fst) ∧
    ∀ op, (o.mode, op) ∈ rows → (encode (mk o)).head? = some op

/-- `t` with what the engine books for an instruction that began in `s` (R169, R170): base cycles of its opcode and
`extra`, and its opcode value in the coverage set. -/
def booked (i : Instr) (extra : Nat) (s t : State) : State :=
  { t with cycles := s.cycles + ((s.params.cycleRow (opcodeByte i)).base + extra),
           coverage := mark (opcodeByte i) s.coverage }

/-- `t` with PC past the instruction that began in `s` (R168), and the booking. -/
def advanced (i : Instr) (extra : Nat) (s t : State) : State :=
  booked i extra s { t with pc := s.pc + BitVec.ofNat 16 (encode i).length }

/-- The extra cycle of an instruction with operand `o` (R89). -/
def crossExtra (i : Instr) (o : Operand) (s : State) : Nat :=
  s.params.pageExtra (opcodeByte i) (s.resolve o).crossed

/-- One bit of a status byte. -/
def bitAt (n : Nat) (on : Bool) : Byte := if on then BitVec.ofNat 8 (2 ^ n) else 0

/-- P with the bits of NZ = 0x82 cleared and then set from `v` (R26, R106). -/
def withNZ (v p : Byte) : Byte := (p &&& 0x7D) ||| bitAt 7 (v.getLsbD 7) ||| bitAt 1 (decide (v = 0))

/-- P with the bits of NZC = 0x83 cleared, N and Z set from `v`, C from `c` (R26). -/
def withNZC (v : Byte) (c : Bool) (p : Byte) : Byte :=
  (p &&& 0x7C) ||| bitAt 7 (v.getLsbD 7) ||| bitAt 1 (decide (v = 0)) ||| bitAt 0 c

/-- P with N, V, Z and C given. -/
def withNVZC (n v z c : Bool) (p : Byte) : Byte :=
  (p &&& 0x3C) ||| bitAt 7 n ||| bitAt 6 v ||| bitAt 1 z ||| bitAt 0 c

/-- Bit `n` of a number (R7). -/
def numBit (n t : Nat) : Bool := decide (t / 2 ^ n % 2 = 1)

/-- The V formula of R108, R109 and R111 on bit 7: `~(a ^ v) & (a ^ t)`. -/
def overflow7 (a v : Byte) (t : Nat) : Bool := (a.getLsbD 7 == v.getLsbD 7) && (a.getLsbD 7 != numBit 7 t)

/-- The state right after JSR's pushes and jump, before its VSR check (R144). -/
def afterJsr (target : Word) (s : State) : State := (s.pushWord (s.pc + 2)).setPc target

/-- The target of a jump that a VSR may be registered at (R175). -/
def jumpTarget (i : Instr) (s : State) : Option Word :=
  match i with
  | .jmp o => (s.resolve o).ea
  | .jsr target => some target
  | _ => none

/-- The instruction invokes no callback in `s`. -/
def noCallback (i : Instr) (s : State) : Prop := ∀ w, jumpTarget i s = some w → s.vsr.lookup w = none

/-- The addresses an instruction stores to, computed as its meaning computes them (R48, R92). -/
def storedTo (i : Instr) (s : State) : List Word :=
  match i with
  | .sta o | .stx o | .sty o | .inc o | .dec o | .asl o | .lsr o | .rol o | .ror o => (s.dataAddress o).toList
  | .pha | .php => [stackAddr s.sp]
  | .jsr _ => [stackAddr s.sp, stackAddr (s.sp - 1)]
  | .brk => [stackAddr s.sp, stackAddr (s.sp - 1), stackAddr (s.sp - 1 - 1)]
  | _ => []

/-- The cost of an instruction by class: the summary of R232, with branches 2+b and illegal opcodes 0. -/
def classRow (i : Instr) : CycleRow :=
  match i with
  | .asl o | .lsr o | .rol o | .ror o | .inc o | .dec o =>
    match o.mode with
    | .accumulator => ⟨2, .none⟩
    | .zeroPage => ⟨5, .none⟩
    | .absoluteX => ⟨7, .none⟩
    | _ => ⟨6, .none⟩
  | .sta o | .stx o | .sty o =>
    match o.mode with
    | .zeroPage => ⟨3, .none⟩
    | .zeroPageX | .zeroPageY | .absolute => ⟨4, .none⟩
    | .absoluteX | .absoluteY => ⟨5, .none⟩
    | _ => ⟨6, .none⟩
  | .adc o | .and o | .bit o | .cmp o | .cpx o | .cpy o | .eor o | .lda o | .ldx o | .ldy o | .ora o | .sbc o =>
    match o.mode with
    | .immediate => ⟨2, .none⟩
    | .zeroPage => ⟨3, .none⟩
    | .zeroPageX | .zeroPageY | .absolute => ⟨4, .none⟩
    | .absoluteX | .absoluteY => ⟨4, .page⟩
    | .xIndexedIndirect => ⟨6, .none⟩
    | _ => ⟨5, .page⟩
  | .bcc _ | .bcs _ | .beq _ | .bmi _ | .bne _ | .bpl _ | .bvc _ | .bvs _ => ⟨2, .branch⟩
  | .jmp o => if o.mode = .absolute then ⟨3, .none⟩ else ⟨5, .none⟩
  | .jsr _ | .rts | .rti => ⟨6, .none⟩
  | .brk => ⟨7, .none⟩
  | .pha | .php => ⟨3, .none⟩
  | .pla | .plp => ⟨4, .none⟩
  | .illegal _ => ⟨0, .none⟩
  | _ => ⟨2, .none⟩

/-- The condition of a branch, as R135 to R142 give it. -/
def branchTaken (i : Instr) (s : State) : Bool :=
  match i with
  | .bcc _ => !s.flag .c
  | .bcs _ => s.flag .c
  | .beq _ => s.flag .z
  | .bne _ => !s.flag .z
  | .bmi _ => s.flag .n
  | .bpl _ => !s.flag .n
  | .bvc _ => !s.flag .v
  | .bvs _ => s.flag .v
  | _ => false

/-- The offset byte of a branch. -/
def branchOffset (i : Instr) : Byte := (encode i).getD 1 0

/-- A step of a powered, running CPU that services no interrupt. -/
def runsInstr (s : State) : Prop :=
  s.powered = true ∧ s.runState = .running ∧ s.nmiLatch = false ∧ ¬(s.irqLine = true ∧ s.flag .i = false)

end Sys2Proof.Claims

open Sys2Proof.Claims

/-- After any sequence of byte writes to a canonical memory, reading an address gives the byte of the last write to that address, or, if none was, what the memory held before. Rests on R44. Clauses that rest on what the spec marks as its own decision or derivation: R44 (decision D30). -/
def Obligations.ReadsReturnTheLastByteWritten : Prop :=
  ∀ (m : Memory) (l : List (Word × Byte)) (a : Word), m.wf = true →
    (m.writeAll l).read a.toNat =
      match l.reverse.find? fun c => c.1 == a with
      | some c => c.2
      | none => m.read a.toNat

/-- Two memories in canonical form (the model's own form, log 1) that give the same byte at every 16-bit address are the same list: memory has no hidden state. Rests on 20_memory.md section 1, R44. Clauses that rest on what the spec marks as its own decision or derivation: R44 (decision D30). -/
def Obligations.EqualReadsMakeEqualMemories : Prop :=
  ∀ m m' : Memory, m.wf = true → m'.wf = true → (∀ a : Word, m.read a.toNat = m'.read a.toNat) → m = m'

/-- Push(v) changes only the byte at 0x0100 + S, which becomes v, and S, which becomes S - 1 modulo 256; Pull() gives the byte at 0x0100 + ((S + 1) modulo 256) and changes only S, to that value. Rests on R48, R49. Clauses that rest on what the spec marks as its own decision or derivation: R49 (decision D13). -/
def Obligations.PushAndPullWrapInPageOne : Prop :=
  ∀ (s : State) (v : Byte), s.mem.wf = true →
    ((∀ a : Word, (s.push v).read a = if a.toNat = 0x0100 + s.sp.toNat then v else s.read a) ∧
      (s.push v).sp.toNat = (s.sp.toNat + 255) % 256 ∧
      { s.push v with mem := s.mem, sp := s.sp } = s) ∧
    s.pull.1 = s.mem.read (0x0100 + (s.sp.toNat + 1) % 256) ∧
      s.pull.2.sp.toNat = (s.sp.toNat + 1) % 256 ∧ { s.pull.2 with sp := s.sp } = s

/-- MemRead(addr, 2) is the byte at addr plus 256 times the byte at (addr + 1) modulo 65536. Rests on 00_scope.md section 4, 20_memory.md section 2, R45, R46. Clauses that rest on what the spec marks as its own decision or derivation: R45 (decision D2, derived), R46 (decision D2). -/
def Obligations.SixteenBitReadsAreLittleEndian : Prop :=
  ∀ (s : State) (a : Word),
    (s.read16 a).toNat = (s.mem.read a.toNat).toNat + 256 * (s.mem.read ((a.toNat + 1) % 65536)).toNat

/-- For every well-formed instruction, with every operand at every value its encoding admits, decoding its bytes followed by any bytes gives that instruction and exactly the bytes that follow. Rests on 30_encoding.md sections 1 to 3, R61, R63, R66. Clauses that rest on what the spec marks as its own decision or derivation: R63 (derived), R66 (decision D11). -/
def Obligations.DecodeOfEncodeIsTheInstruction : Prop :=
  ∀ (i : Instr) (rest : List Byte), i.wf = true → decode (encode i ++ rest) = .ok (i, rest)

/-- If a list of bytes decodes to an instruction and a rest, the instruction is well-formed and its encoding followed by the rest is the list; and a list does not decode only if it is empty or shorter than the length of the mode its first byte has. Rests on 30_encoding.md sections 1 to 5, R61, R64, R69. -/
def Obligations.EncodeOfDecodeIsTheBytes : Prop :=
  (∀ (bytes rest : List Byte) (i : Instr), decode bytes = .ok (i, rest) → i.wf = true ∧ encode i ++ rest = bytes) ∧
    ∀ (bytes : List Byte) (e : DecodeError), decode bytes = .error e →
      match bytes with
      | [] => e = .empty
      | op :: _ => e = .truncated op ∧ bytes.length < (lookup op).mode.length

/-- lookup gives mnemonic illegal with mode None for exactly the 105 values of R67, there are 105 of them, and 151 other values are legal. Rests on 30_encoding.md section 4, R67, R66. Clauses that rest on what the spec marks as its own decision or derivation: R67 (derived), R66 (decision D11). -/
def Obligations.IllegalOpcodeValuesAreThe105Listed : Prop :=
  (∀ op : Byte, (op ∈ illegalOpcodes ↔ lookup op = ⟨.illegal, .none⟩) ∧
      (op ∉ illegalOpcodes → (lookup op).mnemonic ≠ .illegal ∧ (lookup op).mode ≠ .none)) ∧
    illegalOpcodes.length = 105 ∧ illegalOpcodes.Nodup ∧
    ((List.range 256).filter fun n => !isIllegal (BitVec.ofNat 8 n)).length = 151

/-- Words written out from the opcode map decode as R65 says: one of each instruction length and family. Rests on 30_encoding.md section 3, R65, R63. Clauses that rest on what the spec marks as its own decision or derivation: R63 (derived). -/
def Obligations.SampleWordsDecode : Prop :=
  decode [0xA9, 0x05] = .ok (.lda (.immediate 0x05), []) ∧
    decode [0x8D, 0x00, 0x03] = .ok (.sta (.absolute 0x0300), []) ∧
    decode [0x91, 0x20] = .ok (.sta (.indirectYIndexed 0x20), []) ∧
    decode [0x61, 0x10] = .ok (.adc (.xIndexedIndirect 0x10), []) ∧
    decode [0x2A] = .ok (.rol .accumulator, []) ∧
    decode [0xF0, 0xFE] = .ok (.beq 0xFE, []) ∧
    decode [0x6C, 0xFF, 0x10] = .ok (.jmp (.indirect 0x10FF), []) ∧
    decode [0x20, 0xF7, 0xFF] = .ok (.jsr 0xFFF7, []) ∧
    decode [0x28] = .ok (.plp, []) ∧ decode [0x02] = .ok (.illegal 0x02, [])

/-- For each of the 256 opcode values the length of the mode is 1, 2 or 3; whenever decode_one succeeds, its length is that of the opcode at the address, and BRK's is 1. Rests on R193. Clauses that rest on what the spec marks as its own decision or derivation: R193 (decision D11). -/
def Obligations.DisassemblerAndLookupAgreeOnLength : Prop :=
  (∀ op : Byte, (lookup op).mode.length = 1 ∨ (lookup op).mode.length = 2 ∨ (lookup op).mode.length = 3) ∧
    (∀ (seg : Segment) (addr : Nat) (mem : Memory) (symbols : Symbols) (d : Disassembly),
      decodeOne seg addr mem symbols = .ok d → d.length = (lookup (mem.read addr)).mode.length) ∧
    (lookup 0x00).mnemonic = .brk ∧ (lookup 0x00).mode.length = 1 ∧
    ∀ i : Instr, i.wf = true → (encode i).length = (lookup (opcodeByte i)).mode.length

/-- ZeroPage addresses b1; ZeroPageX and ZeroPageY address (b1 + X) and (b1 + Y) modulo 256; crossed is false; each has length 2. Formalises R78, R79, R80. -/
def Obligations.ZeroPageAddressesWrapInPageZero : Prop :=
  ∀ (s : State) (b : Byte),
    s.resolve (.zeroPage b) = ⟨some (BitVec.ofNat 16 b.toNat), false⟩ ∧
    s.resolve (.zeroPageX b) = ⟨some (BitVec.ofNat 16 ((b.toNat + s.x.toNat) % 256)), false⟩ ∧
    s.resolve (.zeroPageY b) = ⟨some (BitVec.ofNat 16 ((b.toNat + s.y.toNat) % 256)), false⟩ ∧
    Mode.zeroPage.length = 2 ∧ Mode.zeroPageX.length = 2 ∧ Mode.zeroPageY.length = 2 ∧
    ∀ mn : Mnemonic, .zeroPageY ∈ mn.modes ↔ mn = .ldx ∨ mn = .stx

/-- Absolute addresses b2:b1; AbsoluteX and AbsoluteY address (base + index) modulo 65536, and crossed is true exactly when the high byte of that address is not the base's; each has length 3. Rests on R81, R82, R83. Clauses that rest on what the spec marks as its own decision or derivation: R81 (derived), R82 (decision D3). -/
def Obligations.AbsoluteIndexingWrapsAndReportsPageCross : Prop :=
  ∀ (s : State) (b1 b2 : Byte),
    (operandOf .absolute b1 b2 = .absolute (BitVec.ofNat 16 (b1.toNat + 256 * b2.toNat)) ∧
      operandOf .absoluteX b1 b2 = .absoluteX (BitVec.ofNat 16 (b1.toNat + 256 * b2.toNat)) ∧
      operandOf .absoluteY b1 b2 = .absoluteY (BitVec.ofNat 16 (b1.toNat + 256 * b2.toNat))) ∧
    (Mode.absolute.length = 3 ∧ Mode.absoluteX.length = 3 ∧ Mode.absoluteY.length = 3) ∧
    ∀ base : Word,
      s.resolve (.absolute base) = ⟨some base, false⟩ ∧
      (let ea := (base.toNat + s.x.toNat) % 65536
       s.resolve (.absoluteX base) = ⟨some (BitVec.ofNat 16 ea), decide (base.toNat / 256 ≠ ea / 256)⟩) ∧
      (let ea := (base.toNat + s.y.toNat) % 65536
       s.resolve (.absoluteY base) = ⟨some (BitVec.ofNat 16 ea), decide (base.toNat / 256 ≠ ea / 256)⟩)

/-- JMP indirect takes the high byte from the pointer's own page under JMP_IND_PAGE_WRAP and from pointer + 1 otherwise; both bytes of a zero-page pointer lie in page 0; (zp),Y then adds Y modulo 65536 and reports a page cross; the other two report none. Lengths are 3, 2, 2, and Indirect is JMP's alone. Rests on R84, R85, R86. Clauses that rest on what the spec marks as its own decision or derivation: R84 (decision D7), R85 (decision D4), R86 (decision D4). -/
def Obligations.PointerModesReadTheirPointers : Prop :=
  ∀ (s : State) (b : Byte) (ptr : Word),
    (let hiAddr := if s.params.jmpIndPageWrap then ptr.toNat / 256 * 256 + (ptr.toNat % 256 + 1) % 256
        else (ptr.toNat + 1) % 65536
     s.resolve (.indirect ptr) =
       ⟨some (BitVec.ofNat 16 ((s.mem.read ptr.toNat).toNat + 256 * (s.mem.read hiAddr).toNat)), false⟩) ∧
    (let p := (b.toNat + s.x.toNat) % 256
     s.resolve (.xIndexedIndirect b) =
       ⟨some (BitVec.ofNat 16 ((s.mem.read p).toNat + 256 * (s.mem.read ((p + 1) % 256)).toNat)), false⟩) ∧
    (let base := (s.mem.read b.toNat).toNat + 256 * (s.mem.read ((b.toNat + 1) % 256)).toNat
     let ea := (base + s.y.toNat) % 65536
     s.resolve (.indirectYIndexed b) = ⟨some (BitVec.ofNat 16 ea), decide (base / 256 ≠ ea / 256)⟩) ∧
    Mode.indirect.length = 3 ∧ Mode.xIndexedIndirect.length = 2 ∧ Mode.indirectYIndexed.length = 2 ∧
    ∀ mn : Mnemonic, .indirect ∈ mn.modes ↔ mn = .jmp

/-- Operand(mode) gives the immediate byte, A for Accumulator, and the byte at the effective address for a memory mode; StoreOperand(mode, v) makes A or the byte at that same address v and nothing else; Implied, Relative and Indirect have no operand. Rests on 40_addressing.md section 3, R77, R76, R92. Clauses that rest on what the spec marks as its own decision or derivation: R92 (decision D14). -/
def Obligations.OperandHelpersReadAndStore : Prop :=
  ∀ (s : State) (b v : Byte) (o : Operand) (w : Word),
    s.operandValue (.immediate b) = some b ∧
    s.operandValue .accumulator = some s.a ∧ s.storeOperand .accumulator v = some { s with a := v } ∧
    (s.dataAddress o = some w →
      (s.resolve o).ea = some w ∧ s.operandValue o = some (s.mem.read w.toNat) ∧
        s.storeOperand o v = some { s with mem := s.mem.write w.toNat v }) ∧
    (s.dataAddress o = none ↔
      o.mode ∈ [.implied, .accumulator, .immediate, .relative, .indirect]) ∧
    (s.operandValue o = none ↔ o.mode ∈ [.implied, .relative, .indirect])

/-- In every mode it has, LDA (LDX, LDY) completes with A (X, Y) the operand byte, N its bit 7, Z whether it is 0, PC past the instruction, cycles and coverage booked, one cycle more on a page cross for the opcodes of class page, and nothing else changed. Formalises R94, R95, R96. -/
def Obligations.LoadsPutTheOperandInTheRegister : Prop :=
  (encodedAs .lda
      [(.immediate, 0xA9), (.zeroPage, 0xA5), (.zeroPageX, 0xB5), (.xIndexedIndirect, 0xA1), (.indirectYIndexed, 0xB1), (.absolute, 0xAD), (.absoluteX, 0xBD), (.absoluteY, 0xB9)] ∧
    encodedAs .ldx
      [(.immediate, 0xA2), (.zeroPage, 0xA6), (.zeroPageY, 0xB6), (.absolute, 0xAE), (.absoluteY, 0xBE)] ∧
    encodedAs .ldy
      [(.immediate, 0xA0), (.zeroPage, 0xA4), (.zeroPageX, 0xB4), (.absolute, 0xAC), (.absoluteX, 0xBC)]) ∧
    (∀ (o : Operand) (s : State), (Instr.lda o).wf = true →
      ∃ v, s.operandValue o = some v ∧
        exec (.lda o) s = .next (advanced (.lda o) (crossExtra (.lda o) o s) s { s with a := v, p := withNZ v s.p })) ∧
    (∀ (o : Operand) (s : State), (Instr.ldx o).wf = true →
      ∃ v, s.operandValue o = some v ∧
        exec (.ldx o) s = .next (advanced (.ldx o) (crossExtra (.ldx o) o s) s { s with x := v, p := withNZ v s.p })) ∧
    (∀ (o : Operand) (s : State), (Instr.ldy o).wf = true →
      ∃ v, s.operandValue o = some v ∧
        exec (.ldy o) s = .next (advanced (.ldy o) (crossExtra (.ldy o) o s) s { s with y := v, p := withNZ v s.p }))

/-- In every mode it has, STA (STX, STY) completes with the byte at the effective address A (X, Y) and every other byte, register and flag unchanged but PC past the instruction, cycles and coverage; under the NMOS cycle table a page cross charges nothing (under a launch's own CYCLE_TABLE an opcode listed with class page is charged, the model's choice, log 7); after any pointer reads it makes one write and does not read its target (the access sequence, log 13). Rests on R97, R98, R99, R90, R52. Clauses that rest on what the spec marks as its own decision or derivation: R52 (decision D14). -/
def Obligations.StoresWriteTheRegisterAtTheAddress : Prop :=
  (encodedAs .sta
      [(.zeroPage, 0x85), (.zeroPageX, 0x95), (.xIndexedIndirect, 0x81), (.indirectYIndexed, 0x91), (.absolute, 0x8D), (.absoluteX, 0x9D), (.absoluteY, 0x99)] ∧
    encodedAs .stx
      [(.zeroPage, 0x86), (.zeroPageY, 0x96), (.absolute, 0x8E)] ∧
    encodedAs .sty
      [(.zeroPage, 0x84), (.zeroPageX, 0x94), (.absolute, 0x8C)]) ∧
    (∀ (o : Operand) (s : State), (Instr.sta o).wf = true →
      ∃ ea, s.dataAddress o = some ea ∧
        (s.mem.wf = true → ∀ a : Word, (s.write ea s.a).read a = if a = ea then s.a else s.read a) ∧
        exec (.sta o) s = .next (advanced (.sta o) (crossExtra (.sta o) o s) s (s.write ea s.a))) ∧
    (∀ (o : Operand) (s : State), (Instr.stx o).wf = true →
      ∃ ea, s.dataAddress o = some ea ∧
        (s.mem.wf = true → ∀ a : Word, (s.write ea s.x).read a = if a = ea then s.x else s.read a) ∧
        exec (.stx o) s = .next (advanced (.stx o) (crossExtra (.stx o) o s) s (s.write ea s.x))) ∧
    (∀ (o : Operand) (s : State), (Instr.sty o).wf = true →
      ∃ ea, s.dataAddress o = some ea ∧
        (s.mem.wf = true → ∀ a : Word, (s.write ea s.y).read a = if a = ea then s.y else s.read a) ∧
        exec (.sty o) s = .next (advanced (.sty o) (crossExtra (.sty o) o s) s (s.write ea s.y))) ∧
    (∀ (o : Operand) (s : State), s.params.cycleTable = [] →
      ((Instr.sta o).wf = true → crossExtra (.sta o) o s = 0) ∧ ((Instr.stx o).wf = true → crossExtra (.stx o) o s = 0) ∧
        ((Instr.sty o).wf = true → crossExtra (.sty o) o s = 0)) ∧
    ∀ (o : Operand) (s : State) (ea : Word), s.dataAddress o = some ea →
      s.instrAccesses (.sta o) = s.pointerAccesses o ++ [.write ea s.a] ∧
      s.instrAccesses (.stx o) = s.pointerAccesses o ++ [.write ea s.x] ∧
      s.instrAccesses (.sty o) = s.pointerAccesses o ++ [.write ea s.y]

/-- TAX, TAY, TXA, TYA and TSX copy the source register and set N and Z of it; TXS copies X to S and changes no flag; each completes with PC + 1, cycles and coverage booked and nothing else changed. Formalises R100, R101, R102, R103, R104, R105. -/
def Obligations.TransfersCopyARegister : Prop :=
  (encode .tax = [0xAA] ∧ encode .tay = [0xA8] ∧ encode .txa = [0x8A] ∧
    encode .tya = [0x98] ∧ encode .tsx = [0xBA] ∧ encode .txs = [0x9A]) ∧
    (∀ s : State, exec .tax s = .next (advanced .tax 0 s { s with x := s.a, p := withNZ s.a s.p })) ∧
    (∀ s : State, exec .tay s = .next (advanced .tay 0 s { s with y := s.a, p := withNZ s.a s.p })) ∧
    (∀ s : State, exec .txa s = .next (advanced .txa 0 s { s with a := s.x, p := withNZ s.x s.p })) ∧
    (∀ s : State, exec .tya s = .next (advanced .tya 0 s { s with a := s.y, p := withNZ s.y s.p })) ∧
    (∀ s : State, exec .tsx s = .next (advanced .tsx 0 s { s with x := s.sp, p := withNZ s.sp s.p })) ∧
    (∀ s : State, exec .txs s = .next (advanced .txs 0 s { s with sp := s.x }))

/-- ADC has the eight modes and opcodes of R114. With D clear it completes with A = (A + v + C) modulo 256, C whether the sum exceeds 255, V by the formula of R108, N and Z of the new A, the other bits of P kept, and nothing else changed but PC, cycles and coverage. Formalises R108. -/
def Obligations.AdcBinaryAddsWithCarry : Prop :=
  encodedAs .adc
      [(.immediate, 0x69), (.zeroPage, 0x65), (.zeroPageX, 0x75), (.xIndexedIndirect, 0x61), (.indirectYIndexed, 0x71), (.absolute, 0x6D), (.absoluteX, 0x7D), (.absoluteY, 0x79)] ∧
  ∀ (o : Operand) (s : State), (Instr.adc o).wf = true → s.flag .d = false →
    ∃ v, s.operandValue o = some v ∧
      let t := s.a.toNat + v.toNat + (s.flag .c).toNat

      exec (.adc o) s = .next (advanced (.adc o) (crossExtra (.adc o) o s) s { s with
        a := BitVec.ofNat 8 t
        p := withNVZC (numBit 7 t) (overflow7 s.a v t) (decide (t % 256 = 0)) (decide (t / 256 ≠ 0)) s.p })

/-- With D set ADC completes with the accumulator and the flags N, V, Z, C that the pseudocode of R109 computes (high-digit test t >= 0xA0, N and V before the high-digit fix, Z of the binary sum), on every operand, and nothing else changed but PC, cycles and coverage. Rests on R109. Clauses that rest on what the spec marks as its own decision or derivation: R109 (decision D5, decision D6). -/
def Obligations.AdcDecimalCorrectsEachDigit : Prop :=
  ∀ (o : Operand) (s : State), (Instr.adc o).wf = true → s.flag .d = true →
    ∃ v, s.operandValue o = some v ∧
      let c := (s.flag .c).toNat
      let al₀ := s.a.toNat % 16 + v.toNat % 16 + c
      let al := if 10 ≤ al₀ then (al₀ + 6) % 16 + 16 else al₀
      let t := (s.a.toNat - s.a.toNat % 16) + (v.toNat - v.toNat % 16) + al
      let t' := if 160 ≤ t then t + 96 else t
      exec (.adc o) s = .next (advanced (.adc o) (crossExtra (.adc o) o s) s { s with 
        a := BitVec.ofNat 8 t'
        p := withNVZC (numBit 7 t) (overflow7 s.a v t) (decide ((s.a.toNat + v.toNat + c) % 256 = 0)) (decide (256 ≤ t')) s.p })

/-- SBC has the eight modes and opcodes of R115. With D clear it completes with A = (A + (255 - v) + C) modulo 256, C set exactly when A >= v + (1 - C) as unsigned numbers, V by R108's formula on the complement, N and Z of the new A, and nothing else changed but PC, cycles and coverage. Formalises R110. -/
def Obligations.SbcBinarySubtractsWithBorrow : Prop :=
  encodedAs .sbc
      [(.immediate, 0xE9), (.zeroPage, 0xE5), (.zeroPageX, 0xF5), (.xIndexedIndirect, 0xE1), (.indirectYIndexed, 0xF1), (.absolute, 0xED), (.absoluteX, 0xFD), (.absoluteY, 0xF9)] ∧
  ∀ (o : Operand) (s : State), (Instr.sbc o).wf = true → s.flag .d = false →
    ∃ v, s.operandValue o = some v ∧
      let t := s.a.toNat + (255 - v.toNat) + (s.flag .c).toNat
      exec (.sbc o) s = .next (advanced (.sbc o) (crossExtra (.sbc o) o s) s { s with 
        a := BitVec.ofNat 8 t
        p := withNVZC (numBit 7 t) (overflow7 s.a (255 - v) t) (decide (t % 256 = 0))
          (decide (v.toNat + (1 - (s.flag .c).toNat) ≤ s.a.toNat)) s.p })

/-- With D set SBC completes with the accumulator of R111's nibble-corrected difference and with exactly the flags binary SBC gives, on every operand, and nothing else changed but PC, cycles and coverage. Rests on R111. Clauses that rest on what the spec marks as its own decision or derivation: R111 (decision D5, decision D6). -/
def Obligations.SbcDecimalSubtractsDigits : Prop :=
  ∀ (o : Operand) (s : State), (Instr.sbc o).wf = true → s.flag .d = true →
    ∃ v, s.operandValue o = some v ∧
      let c := (s.flag .c).toNat
      let t₂ := s.a.toNat + (255 - v.toNat) + c
      let al₀ : Int := (s.a.toNat % 16 : Nat) - (v.toNat % 16 : Nat) + (c : Int) - 1
      let al : Int := if al₀ < 0 then (al₀ - 6) % 16 - 16 else al₀
      let t : Int := ((s.a.toNat - s.a.toNat % 16 : Nat) : Int) - ((v.toNat - v.toNat % 16 : Nat) : Int) + al
      let t' : Int := if t < 0 then t - 96 else t
      exec (.sbc o) s = .next (advanced (.sbc o) (crossExtra (.sbc o) o s) s { s with 
        a := BitVec.ofInt 8 t'
        p := withNVZC (numBit 7 t₂) (overflow7 s.a (255 - v) t₂) (decide (t₂ % 256 = 0)) (decide (256 ≤ t₂)) s.p })

/-- For all bytes and carries, the V that binary ADC (SBC) computes is set exactly when the signed sum (difference with borrow) lies outside -128..127; and for operands that are valid BCD the decimal results are the decimal sum and difference modulo 100 with C the decimal carry (no borrow). Rests on 10_state.md section 2, 42_arith_logic.md section 1, R23, R108, R109, R110, R111. Clauses that rest on what the spec marks as its own decision or derivation: R109 (decision D5, decision D6), R111 (decision D5, decision D6). -/
def Obligations.OverflowFlagIsSignedOverflow : Prop :=
  (∀ (a v : Byte) (c : Bool),
      ((adcBinary a v c).v = true ↔ ¬(-128 ≤ a.toInt + v.toInt + c.toNat ∧ a.toInt + v.toInt + c.toNat ≤ 127)) ∧
      ((sbcBinary a v c).v = true ↔
        ¬(-128 ≤ a.toInt - v.toInt - (1 - c.toNat) ∧ a.toInt - v.toInt - (1 - c.toNat) ≤ 127))) ∧
    ∀ (ah al vh vl : Nat) (c : Bool), ah < 10 → al < 10 → vh < 10 → vl < 10 →
      let a := BitVec.ofNat 8 (16 * ah + al)
      let v := BitVec.ofNat 8 (16 * vh + vl)
      let sum := 10 * ah + al + (10 * vh + vl) + c.toNat
      let diff := 100 + (10 * ah + al) + c.toNat - 1 - (10 * vh + vl)
      (adcDecimal a v c).value = BitVec.ofNat 8 (16 * (sum % 100 / 10) + sum % 10) ∧
      (adcDecimal a v c).c = decide (100 ≤ sum) ∧
      (sbcDecimal a v c).value = BitVec.ofNat 8 (16 * (diff % 100 / 10) + diff % 10) ∧
      (sbcDecimal a v c).c = decide (100 ≤ diff)

/-- AND, ORA and EOR complete in every mode with A the bitwise and, or, exclusive or of A and the operand, N and Z of it, PC, cycles and coverage booked and nothing else changed. Formalises R116, R117, R118. -/
def Obligations.LogicOperationsCombineWithA : Prop :=
  (encodedAs .and
      [(.immediate, 0x29), (.zeroPage, 0x25), (.zeroPageX, 0x35), (.xIndexedIndirect, 0x21), (.indirectYIndexed, 0x31), (.absolute, 0x2D), (.absoluteX, 0x3D), (.absoluteY, 0x39)] ∧
    encodedAs .ora
      [(.immediate, 0x09), (.zeroPage, 0x05), (.zeroPageX, 0x15), (.xIndexedIndirect, 0x01), (.indirectYIndexed, 0x11), (.absolute, 0x0D), (.absoluteX, 0x1D), (.absoluteY, 0x19)] ∧
    encodedAs .eor
      [(.immediate, 0x49), (.zeroPage, 0x45), (.zeroPageX, 0x55), (.xIndexedIndirect, 0x41), (.indirectYIndexed, 0x51), (.absolute, 0x4D), (.absoluteX, 0x5D), (.absoluteY, 0x59)]) ∧
    (∀ (o : Operand) (s : State), (Instr.and o).wf = true →
      ∃ v, s.operandValue o = some v ∧
        exec (.and o) s = .next (advanced (.and o) (crossExtra (.and o) o s) s { s with a := s.a &&& v, p := withNZ (s.a &&& v) s.p })) ∧
    (∀ (o : Operand) (s : State), (Instr.ora o).wf = true →
      ∃ v, s.operandValue o = some v ∧
        exec (.ora o) s = .next (advanced (.ora o) (crossExtra (.ora o) o s) s { s with a := s.a ||| v, p := withNZ (s.a ||| v) s.p })) ∧
    (∀ (o : Operand) (s : State), (Instr.eor o).wf = true →
      ∃ v, s.operandValue o = some v ∧
        exec (.eor o) s = .next (advanced (.eor o) (crossExtra (.eor o) o s) s { s with a := s.a ^^^ v, p := withNZ (s.a ^^^ v) s.p }))

/-- CMP, CPX and CPY complete in every mode with C whether the register is at least the operand, N and Z of the difference modulo 256, every register and the other flags (V and D too) kept, PC, cycles and coverage booked. Formalises R107, R119, R120, R121. -/
def Obligations.ComparesSetFlagsOnly : Prop :=
  (encodedAs .cmp
      [(.immediate, 0xC9), (.zeroPage, 0xC5), (.zeroPageX, 0xD5), (.xIndexedIndirect, 0xC1), (.indirectYIndexed, 0xD1), (.absolute, 0xCD), (.absoluteX, 0xDD), (.absoluteY, 0xD9)] ∧
    encodedAs .cpx
      [(.immediate, 0xE0), (.zeroPage, 0xE4), (.absolute, 0xEC)] ∧
    encodedAs .cpy
      [(.immediate, 0xC0), (.zeroPage, 0xC4), (.absolute, 0xCC)]) ∧
    (∀ (o : Operand) (s : State), (Instr.cmp o).wf = true →
      ∃ v, s.operandValue o = some v ∧
        exec (.cmp o) s = .next (advanced (.cmp o) (crossExtra (.cmp o) o s) s { s with p := withNZC (BitVec.ofNat 8 (256 + s.a.toNat - v.toNat)) (decide (v.toNat ≤ s.a.toNat)) s.p })) ∧
    (∀ (o : Operand) (s : State), (Instr.cpx o).wf = true →
      ∃ v, s.operandValue o = some v ∧
        exec (.cpx o) s = .next (advanced (.cpx o) (crossExtra (.cpx o) o s) s { s with p := withNZC (BitVec.ofNat 8 (256 + s.x.toNat - v.toNat)) (decide (v.toNat ≤ s.x.toNat)) s.p })) ∧
    (∀ (o : Operand) (s : State), (Instr.cpy o).wf = true →
      ∃ v, s.operandValue o = some v ∧
        exec (.cpy o) s = .next (advanced (.cpy o) (crossExtra (.cpy o) o s) s { s with p := withNZC (BitVec.ofNat 8 (256 + s.y.toNat - v.toNat)) (decide (v.toNat ≤ s.y.toNat)) s.p }))

/-- BIT completes in both its modes with N the operand's bit 7, V its bit 6, Z whether operand and A have no common bit, A and the other flags kept, PC, cycles and coverage booked. Formalises R112, R122. -/
def Obligations.BitTestsMemoryAgainstA : Prop :=
  encodedAs .bit
      [(.zeroPage, 0x24), (.absolute, 0x2C)] ∧
    ∀ (o : Operand) (s : State), (Instr.bit o).wf = true →
      ∃ v, s.operandValue o = some v ∧
        exec (.bit o) s = .next (advanced (.bit o) (crossExtra (.bit o) o s) s { s with p := (s.p &&& 0x3D) ||| bitAt 7 (v.getLsbD 7) ||| bitAt 6 (v.getLsbD 6) ||| bitAt 1 (decide (v &&& s.a = 0)) })

/-- INC and DEC complete in every mode with the byte at the effective address plus (minus) 1 modulo 256, N and Z of the result, every other flag kept whatever D is, PC, cycles and coverage booked, and nothing else changed; under the NMOS cycle table a page cross charges nothing (under a launch's own CYCLE_TABLE an opcode listed with class page is charged, the model's choice, log 7); after any pointer reads it makes one read and one write of that address (the access sequence, log 13). Rests on R123, R124, R91, R92, R52. Clauses that rest on what the spec marks as its own decision or derivation: R91 (decision D20), R92 (decision D14), R52 (decision D14). -/
def Obligations.IncAndDecChangeOneByteOfMemory : Prop :=
  (encodedAs .inc
      [(.zeroPage, 0xE6), (.zeroPageX, 0xF6), (.absolute, 0xEE), (.absoluteX, 0xFE)] ∧
    encodedAs .dec
      [(.zeroPage, 0xC6), (.zeroPageX, 0xD6), (.absolute, 0xCE), (.absoluteX, 0xDE)]) ∧
    (∀ (o : Operand) (s : State), (Instr.inc o).wf = true →
      ∃ v, s.operandValue o = some v ∧
        let r : Byte := BitVec.ofNat 8 (v.toNat + 1)
        ∃ u, s.storeOperand o r = some u ∧
          exec (.inc o) s = .next (advanced (.inc o) (crossExtra (.inc o) o s) s { u with p := withNZ r s.p })) ∧
    (∀ (o : Operand) (s : State), (Instr.dec o).wf = true →
      ∃ v, s.operandValue o = some v ∧
        let r : Byte := BitVec.ofNat 8 (v.toNat + 255)
        ∃ u, s.storeOperand o r = some u ∧
          exec (.dec o) s = .next (advanced (.dec o) (crossExtra (.dec o) o s) s { u with p := withNZ r s.p })) ∧
    (∀ (o : Operand) (s : State), s.params.cycleTable = [] →
      ((Instr.inc o).wf = true → crossExtra (.inc o) o s = 0) ∧
      ((Instr.dec o).wf = true → crossExtra (.dec o) o s = 0)) ∧
    ∀ (o : Operand) (s : State) (ea : Word), s.dataAddress o = some ea →
      s.instrAccesses (.inc o) = s.pointerAccesses o ++ [.read ea, .write ea (s.read ea + 1)] ∧
      s.instrAccesses (.dec o) = s.pointerAccesses o ++ [.read ea, .write ea (s.read ea - 1)]

/-- INX, INY, DEX and DEY complete with X (Y) plus (minus) 1 modulo 256, N and Z of it, PC + 1, cycles and coverage booked and nothing else changed. Formalises R125, R126, R127, R128. -/
def Obligations.IndexRegistersCountModulo256 : Prop :=
  (encode .inx = [0xE8] ∧ encode .iny = [0xC8] ∧ encode .dex = [0xCA] ∧ encode .dey = [0x88]) ∧
    (∀ s : State,
      let r : Byte := BitVec.ofNat 8 (s.x.toNat + 1)
      exec .inx s = .next (advanced .inx 0 s { s with x := r, p := withNZ r s.p })) ∧
    (∀ s : State,
      let r : Byte := BitVec.ofNat 8 (s.y.toNat + 1)
      exec .iny s = .next (advanced .iny 0 s { s with y := r, p := withNZ r s.p })) ∧
    (∀ s : State,
      let r : Byte := BitVec.ofNat 8 (s.x.toNat + 255)
      exec .dex s = .next (advanced .dex 0 s { s with x := r, p := withNZ r s.p })) ∧
    (∀ s : State,
      let r : Byte := BitVec.ofNat 8 (s.y.toNat + 255)
      exec .dey s = .next (advanced .dey 0 s { s with y := r, p := withNZ r s.p }))

/-- ASL, LSR, ROL and ROR complete on A and on memory in every mode: the bit shifted off goes to C, rotates feed the old C into the vacated bit, N and Z come from the result, V, D, I and B are kept, and nothing else changes but PC, cycles and coverage; under the NMOS cycle table a page cross charges nothing (under a launch's own CYCLE_TABLE an opcode listed with class page is charged, the model's choice, log 7). Rests on R129, R130, R131, R132, R133, R91. Clauses that rest on what the spec marks as its own decision or derivation: R91 (decision D20). -/
def Obligations.ShiftsAndRotatesMoveOneBit : Prop :=
  (encodedAs .asl
      [(.accumulator, 0x0A), (.zeroPage, 0x06), (.zeroPageX, 0x16), (.absolute, 0x0E), (.absoluteX, 0x1E)] ∧
    encodedAs .lsr
      [(.accumulator, 0x4A), (.zeroPage, 0x46), (.zeroPageX, 0x56), (.absolute, 0x4E), (.absoluteX, 0x5E)] ∧
    encodedAs .rol
      [(.accumulator, 0x2A), (.zeroPage, 0x26), (.zeroPageX, 0x36), (.absolute, 0x2E), (.absoluteX, 0x3E)] ∧
    encodedAs .ror
      [(.accumulator, 0x6A), (.zeroPage, 0x66), (.zeroPageX, 0x76), (.absolute, 0x6E), (.absoluteX, 0x7E)]) ∧
    (∀ (o : Operand) (s : State), (Instr.asl o).wf = true →
      ∃ v, s.operandValue o = some v ∧
        let r : Byte := BitVec.ofNat 8 (2 * v.toNat)
        ∃ u, s.storeOperand o r = some u ∧
          exec (.asl o) s = .next (advanced (.asl o) (crossExtra (.asl o) o s) s { u with p := withNZC r (numBit 7 v.toNat) s.p })) ∧
    (∀ (o : Operand) (s : State), (Instr.lsr o).wf = true →
      ∃ v, s.operandValue o = some v ∧
        let r : Byte := BitVec.ofNat 8 (v.toNat / 2)
        ∃ u, s.storeOperand o r = some u ∧
          exec (.lsr o) s = .next (advanced (.lsr o) (crossExtra (.lsr o) o s) s { u with p := withNZC r (numBit 0 v.toNat) s.p })) ∧
    (∀ (o : Operand) (s : State), (Instr.rol o).wf = true →
      ∃ v, s.operandValue o = some v ∧
        let r : Byte := BitVec.ofNat 8 (2 * v.toNat + (s.flag .c).toNat)
        ∃ u, s.storeOperand o r = some u ∧
          exec (.rol o) s = .next (advanced (.rol o) (crossExtra (.rol o) o s) s { u with p := withNZC r (numBit 7 v.toNat) s.p })) ∧
    (∀ (o : Operand) (s : State), (Instr.ror o).wf = true →
      ∃ v, s.operandValue o = some v ∧
        let r : Byte := BitVec.ofNat 8 (v.toNat / 2 + 128 * (s.flag .c).toNat)
        ∃ u, s.storeOperand o r = some u ∧
          exec (.ror o) s = .next (advanced (.ror o) (crossExtra (.ror o) o s) s { u with p := withNZC r (numBit 0 v.toNat) s.p })) ∧
    ∀ (o : Operand) (s : State), s.params.cycleTable = [] →
      ((Instr.asl o).wf = true → crossExtra (.asl o) o s = 0) ∧
      ((Instr.lsr o).wf = true → crossExtra (.lsr o) o s = 0) ∧
      ((Instr.rol o).wf = true → crossExtra (.rol o) o s = 0) ∧
      ((Instr.ror o).wf = true → crossExtra (.ror o) o s = 0)

/-- Each branch completes: when its condition fails PC is pc0 + 2 and nothing extra is charged; when it holds PC is pc0 + 2 plus the signed offset modulo 65536, with 1 extra cycle on the page of pc0 + 2 and 2 on another; its base cost is 2 in the NMOS table; coverage is marked, no flag and nothing else changes. Rests on R87, R134, R135, R136, R137, R138, R139, R140, R141, R142. Clauses that rest on what the spec marks as its own decision or derivation: R134 (decision D20). -/
def Obligations.BranchesGoToTheRelativeTarget : Prop :=
  ∀ (s : State) (b : Byte),
    let next : Nat := (s.pc.toNat + 2) % 65536
    let target : Word := BitVec.ofInt 16 (s.pc.toNat + 2 + b.toInt)
    let taken (i : Instr) : Result :=
      .next (booked i (if target.toNat / 256 = next / 256 then 1 else 2) s { s with pc := target })
    let notTaken (i : Instr) : Result := .next (booked i 0 s { s with pc := BitVec.ofNat 16 next })
    (encode (.bcc b) = [0x90, b] ∧ nmosCycles 0x90 = ⟨2, .branch⟩ ∧
      exec (.bcc b) s = if s.flag .c = false then taken (.bcc b) else notTaken (.bcc b)) ∧
    (encode (.bcs b) = [0xB0, b] ∧ nmosCycles 0xB0 = ⟨2, .branch⟩ ∧
      exec (.bcs b) s = if s.flag .c = true then taken (.bcs b) else notTaken (.bcs b)) ∧
    (encode (.beq b) = [0xF0, b] ∧ nmosCycles 0xF0 = ⟨2, .branch⟩ ∧
      exec (.beq b) s = if s.flag .z = true then taken (.beq b) else notTaken (.beq b)) ∧
    (encode (.bmi b) = [0x30, b] ∧ nmosCycles 0x30 = ⟨2, .branch⟩ ∧
      exec (.bmi b) s = if s.flag .n = true then taken (.bmi b) else notTaken (.bmi b)) ∧
    (encode (.bne b) = [0xD0, b] ∧ nmosCycles 0xD0 = ⟨2, .branch⟩ ∧
      exec (.bne b) s = if s.flag .z = false then taken (.bne b) else notTaken (.bne b)) ∧
    (encode (.bpl b) = [0x10, b] ∧ nmosCycles 0x10 = ⟨2, .branch⟩ ∧
      exec (.bpl b) s = if s.flag .n = false then taken (.bpl b) else notTaken (.bpl b)) ∧
    (encode (.bvc b) = [0x50, b] ∧ nmosCycles 0x50 = ⟨2, .branch⟩ ∧
      exec (.bvc b) s = if s.flag .v = false then taken (.bvc b) else notTaken (.bvc b)) ∧
    (encode (.bvs b) = [0x70, b] ∧ nmosCycles 0x70 = ⟨2, .branch⟩ ∧
      exec (.bvs b) s = if s.flag .v = true then taken (.bvs b) else notTaken (.bvs b))

/-- JMP in both modes and JSR, to a target at which no VSR is registered, complete with PC the target; JMP changes nothing else but cycles and coverage; JSR pushes pc0 + 2, high byte at 0x0100 + S and low byte below it in page 1, with S lower by 2. (With a registered target: VsrCallbacksRunAtJumps.) Rests on 44_control.md section 2, R143, R144. Clauses that rest on what the spec marks as its own decision or derivation: R144 (decision D12, decision D14). -/
def Obligations.JumpsWithoutVsrGoToTheirTarget : Prop :=
  (encodedAs .jmp [(.absolute, 0x4C), (.indirect, 0x6C)]) ∧
    (∀ target : Word, encode (.jsr target) = [0x20, target.extractLsb' 0 8, target.extractLsb' 8 8]) ∧
    (∀ (o : Operand) (s : State) (w : Word), (Instr.jmp o).wf = true → (s.resolve o).ea = some w →
      s.vsr.lookup w = none → exec (.jmp o) s = .next (booked (.jmp o) 0 s { s with pc := w })) ∧
    ∀ (s : State) (w : Word), s.vsr.lookup w = none →
      let ret := (s.pc.toNat + 2) % 65536
      exec (.jsr w) s = .next (booked (.jsr w) 0 s { s with
        pc := w
        sp := BitVec.ofNat 8 (s.sp.toNat + 254)
        mem := (s.mem.write (0x0100 + s.sp.toNat) (BitVec.ofNat 8 (ret / 256))).write
          (0x0100 + (s.sp.toNat + 255) % 256) (BitVec.ofNat 8 ret) })

/-- If JMP or JSR (after its pushes) reaches a registered target and the callback's acts go on, it completes with the state the callback left, after the simulated RTS for JSR, with its own base cost and its coverage mark, and the callback counted once; the callback changes nothing but A, X, Y, S, P, PC, memory and the exit request; a known callback with an act on engine state is refused. (The list of acts that stands for a callback is the model's own form, log 4.) Rests on 48_execution_engine.md section 2, R175, R174. Clauses that rest on what the spec marks as its own decision or derivation: R175 (decision D12, decision D24), R174 (decision D24). -/
def Obligations.VsrCallbacksRunAtJumps : Prop :=
  (∀ (s u : State) (o : Operand) (w : Word) (cb : Callback), (Instr.jmp o).wf = true → (s.resolve o).ea = some w →
      s.vsr.lookup w = some cb → invokeCallback cb { s with pc := w } = .next u →
      exec (.jmp o) s = .next (booked (.jmp o) 0 s u)) ∧
    (∀ (s u : State) (w : Word) (cb : Callback), s.vsr.lookup w = some cb →
      invokeCallback cb (afterJsr w s) = .next u →
      exec (.jsr w) s = .next (booked (.jsr w) 0 s u.returnFromSubroutine)) ∧
    (∀ (s u : State) (cb : Callback), invokeCallback cb s = .next u →
      u = { s with a := u.a, x := u.x, y := u.y, sp := u.sp, p := u.p, pc := u.pc, mem := u.mem,
                   exitReq := u.exitReq, vsrCalls := s.vsrCalls + 1 }) ∧
    ∀ (s : State) (acts : List VsrAct) (part : EnginePart), .touchEngine part ∈ acts →
      ∃ part', .touchEngine part' ∈ acts ∧ invokeCallback (.known acts) s = .refused (.callbackTouchesEngine part')

/-- RTS completes with PC one past the pulled word, S higher by 2; RTI with P the pulled byte with bit 5 set (B loaded), PC the next pulled word, S higher by 3; the bytes are read at 0x0100 + S + 1 and on, wrapping in page 1; cycles and coverage booked, nothing else changed. Rests on R145, R146. Clauses that rest on what the spec marks as its own decision or derivation: R145 (decision D12), R146 (decision D8). -/
def Obligations.ReturnsPullPc : Prop :=
  ∀ s : State,
    let at' (k : Nat) : Byte := s.mem.read (0x0100 + (s.sp.toNat + k) % 256)
    encode .rts = [0x60] ∧ encode .rti = [0x40] ∧
    exec .rts s = .next (booked .rts 0 s { s with
      sp := BitVec.ofNat 8 (s.sp.toNat + 2)
      pc := BitVec.ofNat 16 ((at' 1).toNat + 256 * (at' 2).toNat + 1) }) ∧
    exec .rti s = .next (booked .rti 0 s { s with
      sp := BitVec.ofNat 8 (s.sp.toNat + 3)
      p := at' 1 ||| 0x20
      pc := BitVec.ofNat 16 ((at' 2).toNat + 256 * (at' 3).toNat) })

/-- BRK completes whatever I is: pc0 + 2 is pushed high byte first, then P with bits 4 and 5 set; S is lower by 3; B and I are set and D and the other flags kept; PC is the word at 0xFFFE; its cost in the NMOS table is 7; cycles and coverage booked, nothing else changed. Rests on R147. Clauses that rest on what the spec marks as its own decision or derivation: R147 (decision D11). -/
def Obligations.BrkTakesTheSoftwareInterrupt : Prop :=
  ∀ s : State,
    let ret := (s.pc.toNat + 2) % 65536
    encode .brk = [0x00] ∧ nmosCycles 0x00 = ⟨7, .none⟩ ∧
    exec .brk s = .next (booked .brk 0 s { s with
      sp := BitVec.ofNat 8 (s.sp.toNat + 253)
      p := s.p ||| 0x14
      pc := BitVec.ofNat 16 ((s.mem.read 0xFFFE).toNat + 256 * (s.mem.read 0xFFFF).toNat)
      mem := ((s.mem.write (0x0100 + s.sp.toNat) (BitVec.ofNat 8 (ret / 256))).write
          (0x0100 + (s.sp.toNat + 255) % 256) (BitVec.ofNat 8 ret)).write
        (0x0100 + (s.sp.toNat + 254) % 256) (s.p ||| 0x30) })

/-- PHA pushes A and PHP pushes P with bits 4 and 5 set, S lower by 1; PLA pulls A and sets N and Z, PLP pulls P with bit 5 forced and B loaded, S higher by 1; each completes with PC + 1, cycles and coverage booked and nothing else changed. Rests on R149, R150, R151, R152. Clauses that rest on what the spec marks as its own decision or derivation: R150 (decision D9), R152 (decision D8). -/
def Obligations.StackInstructionsMoveAAndP : Prop :=
  ∀ s : State,
    let pulled : Byte := s.mem.read (0x0100 + (s.sp.toNat + 1) % 256)
    (encode .pha = [0x48] ∧ encode .php = [0x08] ∧ encode .pla = [0x68] ∧ encode .plp = [0x28]) ∧
    (nmosCycles 0x48 = ⟨3, .none⟩ ∧ nmosCycles 0x08 = ⟨3, .none⟩ ∧
      nmosCycles 0x68 = ⟨4, .none⟩ ∧ nmosCycles 0x28 = ⟨4, .none⟩) ∧
    exec .pha s = .next (advanced .pha 0 s { s with
      sp := BitVec.ofNat 8 (s.sp.toNat + 255), mem := s.mem.write (0x0100 + s.sp.toNat) s.a }) ∧
    exec .php s = .next (advanced .php 0 s { s with
      sp := BitVec.ofNat 8 (s.sp.toNat + 255), mem := s.mem.write (0x0100 + s.sp.toNat) (s.p ||| 0x30) }) ∧
    exec .pla s = .next (advanced .pla 0 s { s with
      sp := BitVec.ofNat 8 (s.sp.toNat + 1), a := pulled, p := withNZ pulled s.p }) ∧
    exec .plp s = .next (advanced .plp 0 s { s with
      sp := BitVec.ofNat 8 (s.sp.toNat + 1), p := pulled ||| 0x20 })

/-- Each flag instruction clears or sets its one bit of P and keeps the others; NOP changes no bit; each completes with PC + 1, cycles and coverage booked and nothing else changed, and costs 2 in the NMOS table. Formalises R153, R154, R155, R156, R157, R158, R159, R160. -/
def Obligations.FlagInstructionsWriteOneFlag : Prop :=
  (encode .clc = [0x18] ∧ encode .cld = [0xD8] ∧ encode .cli = [0x58] ∧ encode .clv = [0xB8] ∧
    encode .sec = [0x38] ∧ encode .sed = [0xF8] ∧ encode .sei = [0x78] ∧ encode .nop = [0xEA]) ∧
    (([0x18, 0xD8, 0x58, 0xB8, 0x38, 0xF8, 0x78, 0xEA] : List Byte).all fun op => nmosCycles op == ⟨2, .none⟩) = true ∧
    (∀ s : State, exec .clc s = .next (advanced .clc 0 s { s with p := s.p &&& 0xFE })) ∧
    (∀ s : State, exec .cld s = .next (advanced .cld 0 s { s with p := s.p &&& 0xF7 })) ∧
    (∀ s : State, exec .cli s = .next (advanced .cli 0 s { s with p := s.p &&& 0xFB })) ∧
    (∀ s : State, exec .clv s = .next (advanced .clv 0 s { s with p := s.p &&& 0xBF })) ∧
    (∀ s : State, exec .sec s = .next (advanced .sec 0 s { s with p := s.p ||| 0x01 })) ∧
    (∀ s : State, exec .sed s = .next (advanced .sed 0 s { s with p := s.p ||| 0x08 })) ∧
    (∀ s : State, exec .sei s = .next (advanced .sei 0 s { s with p := s.p ||| 0x04 })) ∧
    ∀ s : State, exec .nop s = .next (advanced .nop 0 s s)

/-- Executing any of the 105 illegal values completes with PC + 1 and run state IllegalOpcode{pc0, op}, and no other register, flag, memory byte, cycle or coverage mark changed; a running CPU that fetches one ends its step in exactly that state, and the next step changes nothing. Rests on R171, R199. Clauses that rest on what the spec marks as its own decision or derivation: R171 (decision D15), R199 (decision D15). -/
def Obligations.IllegalOpcodesEndTheRun : Prop :=
  (∀ (op : Byte) (s : State), op ∈ illegalOpcodes →
      exec (.illegal op) s = .next { s with pc := s.pc + 1, runState := .illegalOpcode s.pc op }) ∧
    ∀ s : State, runsInstr s → s.read s.pc ∈ illegalOpcodes →
      let t : State := { s with pc := s.pc + 1, runState := .illegalOpcode s.pc (s.read s.pc), exitReq := false }
      step s = .next t ∧ step t = .next t

/-- With the default CYCLE_TABLE the row of every well-formed instruction's opcode is the one the summary by class gives, and an instruction that completes (a callback in it or not) adds its base cost, plus 1 for a read of class page whose address left the base's page, plus 1 or 2 for a taken branch, and nothing more. Rests on R89, R90, R91, R232, R233. Clauses that rest on what the spec marks as its own decision or derivation: R89 (decision D20), R91 (decision D20), R232 (decision D20), R233 (decision D20). -/
def Obligations.CyclesFollowTheClassSummary : Prop :=
  (∀ i : Instr, i.wf = true → nmosCycles (opcodeByte i) = classRow i) ∧
    ∀ (i : Instr) (s t : State), i.wf = true → s.params.cycleTable = [] → exec i s = .next t →
      t.cycles = s.cycles + (classRow i).base +
        match (classRow i).penalty with
        | .none => 0
        | .page => if (s.resolve i.operand).crossed then 1 else 0
        | .branch =>
          let target := relativeTarget s.pc (branchOffset i)
          if branchTaken i s then (if target.toNat / 256 = (s.pc + 2).toNat / 256 then 1 else 2) else 0

/-- When the CPU is powered and running, no interrupt is to be serviced and the bytes at PC decode to an instruction, that instruction is well-formed and the step is its execution (from the state with no exit requested) followed by the end of the step: the stuck counter and the status. Rests on 48_execution_engine.md section 1, R162, R165, R166, R167. -/
def Obligations.StepRunsTheDecodedInstruction : Prop :=
  ∀ (s : State) (i : Instr) (rest : List Byte), runsInstr s →
    decode [s.read s.pc, s.read (s.pc + 1), s.read (s.pc + 2)] = .ok (i, rest) →
      i.wf = true ∧
      (∀ t, exec i { s with exitReq := false } = .next t → step s = .next (t.endStep s.pc)) ∧
      (∀ r, exec i { s with exitReq := false } = .refused r → step s = .refused r) ∧
      ∀ r, exec i { s with exitReq := false } ≠ .fault r

/-- A step that services an NMI (IRQ) leaves, before its end (stuck counter and status), PC pushed high byte first, then P with B clear and bit 5 set, S lower by 3, I set and the other bits of P kept, PC the word at 0xFFFA (0xFFFE), cycles + 7, the NMI latch cleared (the IRQ line kept), and no instruction executed or marked. Rests on R204, R205. Clauses that rest on what the spec marks as its own decision or derivation: R204 (decision D10, derived), R205 (decision D23). -/
def Obligations.InterruptEntryPushesPcAndStatus : Prop :=
  ∀ s : State, s.powered = true → s.runState = .running →
    let entered (vec : Nat) : State := { s with
      sp := BitVec.ofNat 8 (s.sp.toNat + 253)
      p := s.p ||| 0x04
      pc := BitVec.ofNat 16 ((s.mem.read vec).toNat + 256 * (s.mem.read (vec + 1)).toNat)
      mem := ((s.mem.write (0x0100 + s.sp.toNat) (s.pc.extractLsb' 8 8)).write
          (0x0100 + (s.sp.toNat + 255) % 256) (s.pc.extractLsb' 0 8)).write
        (0x0100 + (s.sp.toNat + 254) % 256) ((s.p &&& 0xEF) ||| 0x20)
      cycles := s.cycles + 7
      exitReq := false }
    (s.nmiLatch = true → step s = .next (({ entered 0xFFFA with nmiLatch := false } : State).endStep s.pc)) ∧
    (s.nmiLatch = false → s.irqLine = true → s.flag .i = false → step s = .next ((entered 0xFFFE).endStep s.pc))

/-- A step of a running CPU services an NMI if one is latched, else an IRQ if the line is true and I clear, else runs one instruction; with both pending only the NMI is serviced, and since the service sets I and keeps the line, the next step services no IRQ; servicing clears no IRQ line and marks no coverage. Rests on R203. Clauses that rest on what the spec marks as its own decision or derivation: R203 (decision D33). -/
def Obligations.InterruptPriorityIsNmiIrqInstruction : Prop :=
  ∀ s t : State, s.powered = true → s.runState = .running → step s = .next t →
    (s.nmiLatch = true →
      t.nmiLatch = false ∧ t.irqLine = s.irqLine ∧ t.flag .i = true ∧ t.takesIrq = false ∧ t.coverage = s.coverage ∧
        t.pc = ({ s with mem := t.mem } : State).read16 0xFFFA) ∧
    (s.nmiLatch = false → s.irqLine = true → s.flag .i = false →
      t.nmiLatch = false ∧ t.irqLine = true ∧ t.flag .i = true ∧ t.takesIrq = false ∧ t.coverage = s.coverage ∧
        t.pc = ({ s with mem := t.mem } : State).read16 0xFFFE) ∧
    (s.nmiLatch = false → (s.irqLine = false ∨ s.flag .i = true) →
      ∃ u, exec s.fetch s.clearExit = .next u ∧ t = u.endStep s.pc)

/-- Once the run state is terminal a step of a powered CPU leaves the whole state as it is, so the same status stands, until reset() or power(true) sets it to Running; an unpowered CPU refuses step(), run(n) and reset(). Rests on R163, R178. Clauses that rest on what the spec marks as its own decision or derivation: R163 (decision D22), R178 (decision D16). -/
def Obligations.TerminalAndUnpoweredCpusDoNotStep : Prop :=
  ∀ s : State,
    (s.powered = true → s.runState ≠ .running → step s = .next s) ∧
    (s.powered = true → ∃ t, hostReset s = .next t ∧ t.runState = .running) ∧ (powerOn s).runState = .running ∧
    (s.powered = false → step s = .refused .notPowered ∧ hostReset s = .refused .notPowered ∧
      ∀ n r, RunGives n s r ↔ r = .refused .notPowered)

/-- After every step of a running CPU, instruction or interrupt service, that does not end in IllegalOpcode, the stuck counter is one more (up to STUCK_LIMIT) if PC is what it was before the step and 0 if not; and unless the step ended in Exited, the run state is Stuck with the current PC and cycles if the counter has reached STUCK_LIMIT, and Running if not. Rests on R172. Clauses that rest on what the spec marks as its own decision or derivation: R172 (decision D17). -/
def Obligations.StuckAfterStuckLimitStepsInPlace : Prop :=
  ∀ s t : State, s.powered = true → s.runState = .running → step s = .next t →
    (∀ pc op, t.runState ≠ .illegalOpcode pc op) →
      t.stuckCount = (if t.pc = s.pc then min (s.stuckCount + 1) s.params.stuckLimit else 0) ∧
      ((∀ st cy cov, t.runState ≠ .exited st cy cov) →
        t.runState = if s.params.stuckLimit ≤ t.stuckCount then .stuck t.pc t.cycles else .running)

/-- If the instruction of a step leaves an exit requested (and did not end in IllegalOpcode), the step's run state is Exited with the A, cycles and coverage/151 of its end, ahead of Stuck, and no request stands after it; and a running CPU's step ends in Exited only if executing its instruction left an exit requested and that instruction was a JMP or JSR to a registered target. Rests on R176, R177. Clauses that rest on what the spec marks as its own decision or derivation: R176 (decision D24), R177 (decision D25). -/
def Obligations.ExitedIsACallbackRequest : Prop :=
  (∀ s u : State, runsInstr s → exec s.fetch s.clearExit = .next u → u.exitReq = true → u.runState = .running →
      ∃ t, step s = .next t ∧ t.runState = .exited t.a t.cycles ⟨t.coverage.length, 151⟩ ∧ t.exitReq = false ∧
        { t with stuckCount := u.stuckCount, runState := .running, exitReq := true } = u) ∧
    ∀ (s t : State) (st : Byte) (cy : Nat) (cov : CoverageFraction), s.powered = true → s.runState = .running →
      step s = .next t → t.runState = .exited st cy cov →
      runsInstr s ∧ (∃ u, exec s.fetch s.clearExit = .next u ∧ u.exitReq = true) ∧
        ∃ w cb, jumpTarget s.fetch s = some w ∧ s.vsr.lookup w = some cb

/-- No step of any state faults; a step is refused only on an unpowered CPU, or in a running CPU whose instruction is a JMP or JSR to a registered target whose callback changes engine state. Rests on 60_exceptions.md section 1, R200, R163, R175. Clauses that rest on what the spec marks as its own decision or derivation: R200 (derived), R163 (decision D22), R175 (decision D12, decision D24). -/
def Obligations.StepsNeverFaultAndSeldomRefuse : Prop :=
  ∀ s : State,
    (∀ r, step s ≠ .fault r) ∧
    ∀ r, step s = .refused r →
      (r = .notPowered ∧ s.powered = false) ∨
      (∃ part w cb, r = .callbackTouchesEngine part ∧ s.powered = true ∧ runsInstr s ∧
        jumpTarget s.fetch s = some w ∧ s.vsr.lookup w = some cb ∧ .touchEngine part ∈
          ((match s.fetch with
            | .jsr _ => afterJsr w s.clearExit
            | _ => s.clearExit.setPc w) : State).callbackActs cb)

/-- Every powered CPU, in whatever state and with whatever bytes in memory, whose registered callbacks are known lists of acts (the model's form of them, log 4) and none of which changes engine state, answers a next state. Rests on 48_execution_engine.md section 1, R185, R200, R64. Clauses that rest on what the spec marks as its own decision or derivation: R185 (derived), R200 (derived). -/
def Obligations.EveryStepOfAPoweredCpuCompletes : Prop :=
  ∀ s : State, s.powered = true → s.callbacksKeepOut = true → s.StepsOn

/-- From every state that satisfies the invariant (canonical memory, bit 5 of P set, coverage strictly rising and legal, registry strictly rising, stuck counter within its limit and below it while Running, no exit request pending), a step that goes on leads to a state that satisfies it, callbacks of unknown body included. Rests on 10_state.md sections 2 and 3, R24, R33, R35, R36. Clauses that rest on what the spec marks as its own decision or derivation: R24 (decision D8), R33 (decision D17). -/
def Obligations.StepKeepsTheInvariant : Prop :=
  ∀ s t : State, s.Inv → step s = .next t → t.Inv

/-- State.reset satisfies the invariant; constructing a CPU with the default parameters over a memory that lists nothing (the model's launch memory, log 1 and log 3) and calling reset() gives exactly State.reset; a constructed CPU over any canonical memory satisfies the invariant. Rests on 10_state.md section 4, 70_reset_and_hazards.md section 1, R40, R223. Clauses that rest on what the spec marks as its own decision or derivation: R40 (decision D22), R223 (decision D21). -/
def Obligations.ResetMeetsTheInvariant : Prop :=
  State.reset.Inv ∧ hostReset (State.construct [] .default) = .next State.reset ∧
    ∀ (m : Memory) (params : Params), m.wf = true → (State.construct m params).Inv

/-- From every state that satisfies the invariant, each host call leads to a state that satisfies it. Rests on 48_execution_engine.md section 3, R182, R174, R222. Clauses that rest on what the spec marks as its own decision or derivation: R174 (decision D24), R222 (decision D22). -/
def Obligations.HostCallsKeepTheInvariant : Prop :=
  ∀ (s : State) (b : Bool) (a : Word) (v : Byte) (cb : Callback), s.Inv →
    (powerOn s).Inv ∧ (powerOff s).Inv ∧ (nmi s).Inv ∧ (irq b s).Inv ∧ (registerVsr a cb s).Inv ∧
      (hostWrite a v s).Inv ∧ ∀ t, hostReset s = .next t → t.Inv

/-- A step writes everything but vsr and irq_line: it changes neither, nor powered, nor the launch's parameters; it clears the NMI latch exactly when it services an NMI and never sets it; it removes no coverage mark and never lowers the cycle count. Rests on 48_execution_engine.md section 3, R182, R31, R36, R37. Clauses that rest on what the spec marks as its own decision or derivation: R31 (decision D22, derived), R37 (decision D22). -/
def Obligations.StepNeverWritesRegistryOrLine : Prop :=
  ∀ s t : State, step s = .next t →
    t.vsr = s.vsr ∧ t.irqLine = s.irqLine ∧ t.powered = s.powered ∧ t.params = s.params ∧
      t.nmiLatch = (s.nmiLatch && decide (s.runState ≠ .running)) ∧
      (∀ op, op ∈ s.coverage → op ∈ t.coverage) ∧ s.cycles ≤ t.cycles

/-- An instruction that completes, invoking no callback, changes a flag of P only if the table of R27 lists its mnemonic among the flag's writers; bit 5 is changed by PLP and RTI at most (which set it). Rests on 10_state.md section 2, R27, R161. Clauses that rest on what the spec marks as its own decision or derivation: R161 (derived). -/
def Obligations.FlagsAreWrittenOnlyByTheirWriters : Prop :=
  ∀ (i : Instr) (s t : State), noCallback i s → exec i s = .next t →
    (t.flag .n ≠ s.flag .n → i.mnemonic ∈
      ([.lda, .ldx, .ldy, .tax, .tay, .txa, .tya, .tsx, .pla, .adc, .sbc, .and, .ora, .eor,
        .cmp, .cpx, .cpy, .bit, .inc, .dec, .inx, .iny, .dex, .dey, .asl, .lsr, .rol, .ror,
        .plp, .rti] : List Mnemonic)) ∧
    (t.flag .z ≠ s.flag .z → i.mnemonic ∈
      ([.lda, .ldx, .ldy, .tax, .tay, .txa, .tya, .tsx, .pla, .adc, .sbc, .and, .ora, .eor,
        .cmp, .cpx, .cpy, .bit, .inc, .dec, .inx, .iny, .dex, .dey, .asl, .lsr, .rol, .ror,
        .plp, .rti] : List Mnemonic)) ∧
    (t.flag .v ≠ s.flag .v → i.mnemonic ∈
      ([.adc, .sbc, .bit, .clv, .plp, .rti] : List Mnemonic)) ∧
    (t.flag .b ≠ s.flag .b → i.mnemonic ∈
      ([.brk, .plp, .rti] : List Mnemonic)) ∧
    (t.flag .d ≠ s.flag .d → i.mnemonic ∈
      ([.cld, .sed, .plp, .rti] : List Mnemonic)) ∧
    (t.flag .i ≠ s.flag .i → i.mnemonic ∈
      ([.cli, .sei, .brk, .plp, .rti] : List Mnemonic)) ∧
    (t.flag .c ≠ s.flag .c → i.mnemonic ∈
      ([.adc, .sbc, .cmp, .cpx, .cpy, .asl, .lsr, .rol, .ror, .clc, .sec, .plp, .rti] : List Mnemonic)) ∧
    (t.p.getLsbD 5 ≠ s.p.getLsbD 5 → t.p.getLsbD 5 = true ∧ i.mnemonic ∈ ([.plp, .rti] : List Mnemonic))

/-- An instruction that completes, invoking no callback, changes A, X, Y or S only if R18 to R21 list it as a writer; leaves PC past its own length unless it is a branch, JMP, JSR, RTS, RTI or BRK; and changes neither the latches, the stuck counter, the registry, the power, the exit request, the parameters nor, unless it is an illegal opcode, the run state; coverage gains its opcode alone. Rests on 10_state.md section 1, R18, R19, R20, R21, R22, R168, R161. Clauses that rest on what the spec marks as its own decision or derivation: R22 (decision D3), R168 (derived), R161 (derived). -/
def Obligations.RegistersAreWrittenOnlyByTheirWriters : Prop :=
  ∀ (i : Instr) (s t : State), noCallback i s → exec i s = .next t →
    (t.a ≠ s.a → i.mnemonic ∈
      ([.lda, .adc, .sbc, .and, .ora, .eor, .txa, .tya, .pla, .asl, .lsr, .rol, .ror] : List Mnemonic)) ∧
    (i.mnemonic ∈ ([.asl, .lsr, .rol, .ror] : List Mnemonic) → i.mode ≠ .accumulator → t.a = s.a) ∧
    (t.x ≠ s.x → i.mnemonic ∈ ([.ldx, .tax, .tsx, .inx, .dex] : List Mnemonic)) ∧
    (t.y ≠ s.y → i.mnemonic ∈ ([.ldy, .tay, .iny, .dey] : List Mnemonic)) ∧
    (t.sp ≠ s.sp → i.mnemonic ∈ ([.txs, .pha, .php, .pla, .plp, .jsr, .rts, .rti, .brk] : List Mnemonic)) ∧
    (t.pc ≠ s.pc + BitVec.ofNat 16 i.length → i.mnemonic ∈
      ([.bcc, .bcs, .beq, .bmi, .bne, .bpl, .bvc, .bvs, .jmp, .jsr, .rts, .rti, .brk] : List Mnemonic)) ∧
    (i.mnemonic ≠ .illegal → t.runState = s.runState ∧ ∀ op, op ∈ t.coverage ↔ op = opcodeByte i ∨ op ∈ s.coverage) ∧
    t.nmiLatch = s.nmiLatch ∧ t.irqLine = s.irqLine ∧ t.stuckCount = s.stuckCount ∧ t.vsr = s.vsr ∧
    t.powered = s.powered ∧ t.exitReq = s.exitReq ∧ t.vsrCalls = s.vsrCalls ∧ t.params = s.params

/-- An instruction that completes, invoking no callback, leaves every byte of memory as it was except the bytes at the addresses it stores to: the data address of STA, STX, STY, INC, DEC and of the shifts and rotates on memory; 0x0100 + S for PHA and PHP; the two and three stack bytes of JSR and BRK. Every other instruction, and Accumulator forms, store nothing. Rests on 20_memory.md section 3, R52, R92, R48. Clauses that rest on what the spec marks as its own decision or derivation: R52 (decision D14), R92 (decision D14). -/
def Obligations.MemoryChangesOnlyWhereStored : Prop :=
  ∀ (i : Instr) (s t : State), noCallback i s → exec i s = .next t →
    ∀ a : Word, a ∉ storedTo i s → t.read a = s.read a

/-- Marking an opcode gives a strictly rising list that holds exactly the old opcodes and the new one, so a set of at most 151 values of which a step adds at most one: the fraction never falls. Rests on 48_execution_engine.md section 2, R170, R177. Clauses that rest on what the spec marks as its own decision or derivation: R177 (decision D25). -/
def Obligations.CoverageIsASetOfLegalOpcodes : Prop :=
  (∀ (l : List Byte) (op : Byte), coverageWf l = true → isIllegal op = false →
      coverageWf (mark op l) = true ∧ (∀ b, b ∈ mark op l ↔ b = op ∨ b ∈ l) ∧
        (mark op l).length = if op ∈ l then l.length else l.length + 1) ∧
    (∀ l : List Byte, coverageWf l = true → l.length ≤ 151) ∧
    ∀ s t : State, s.Inv → step s = .next t →
      s.coverageFraction.exercised ≤ t.coverageFraction.exercised ∧
        t.coverageFraction.exercised ≤ s.coverageFraction.exercised + 1 ∧ t.coverageFraction.legal = 151

/-- When a step that goes on invokes no callback, memory after it is memory before it with the writes of its access sequence applied in order; so no step writes a byte that its sequence does not list. Rests on 20_memory.md section 3, R52, R55. Clauses that rest on what the spec marks as its own decision or derivation: R52 (decision D14), R55 (derived). -/
def Obligations.MemoryAfterAStepIsItsAccessSequence : Prop :=
  ∀ s t : State, (∀ w, Access.callback w ∉ s.stepAccesses) → step s = .next t →
    t.mem = s.mem.writeAll (writesOf s.stepAccesses)

/-- From every state with canonical memory, returning right after an interrupt entry restores PC, S and P (with B clear and bit 5 set); after BRK it resumes at pc0 + 2 with B set; returning right after JSR resumes at pc0 + 3 with S restored. Rests on 60_exceptions.md section 2, 44_control.md section 2, R210, R145, R204, R147. Clauses that rest on what the spec marks as its own decision or derivation: R145 (decision D12), R204 (decision D10, derived), R147 (decision D11). -/
def Obligations.ReturnsUndoEntries : Prop :=
  ∀ (s : State) (vec target : Word), s.mem.wf = true → s.vsr.lookup target = none →
    (let r := (s.interruptEntry vec).returnFromInterrupt
     r.pc = s.pc ∧ r.sp = s.sp ∧ r.p = (s.p &&& 0xEF) ||| 0x20 ∧ r.a = s.a ∧ r.x = s.x ∧ r.y = s.y) ∧
    (∃ t u, exec .brk s = .next t ∧ exec .rti t = .next u ∧ u.pc = s.pc + 2 ∧ u.sp = s.sp ∧ u.p = s.p ||| 0x30) ∧
    ∃ t u, exec (.jsr target) s = .next t ∧ exec .rts t = .next u ∧ u.pc = s.pc + 3 ∧ u.sp = s.sp ∧ u.p = s.p

/-- power(true) gives every register and engine state the value of R40, without reading memory or changing it; reset() on a powered CPU sets A, X, Y, S, P, clears the latch and the stuck counter, sets Running, loads PC from 0xFFFC low byte first, and keeps cycles, coverage, vsr, irq_line and memory. (The model's own counter vsrCalls and the launch parameters are kept by both, log 5, log 7.) Rests on R40, R221, R223, R224. Clauses that rest on what the spec marks as its own decision or derivation: R40 (decision D22), R221 (decision D22), R223 (decision D21), R224 (decision D2). -/
def Obligations.PowerAndResetGiveTheirValues : Prop :=
  ∀ s : State,
    powerOn s = { s with
      pc := 0x0000, sp := 0xFD, p := 0x36, a := 0x00, x := 0x00, y := 0x00, nmiLatch := false, irqLine := false,
      cycles := 0, stuckCount := 0, runState := .running, coverage := [], vsr := [], powered := true,
      exitReq := false } ∧
    (s.powered = true → hostReset s = .next { s with
      a := 0x00, x := 0x00, y := 0x00, sp := 0xFD, p := 0x36, nmiLatch := false, stuckCount := 0,
      runState := .running,
      pc := BitVec.ofNat 16 ((s.mem.read 0xFFFC).toNat + 256 * (s.mem.read 0xFFFD).toNat) }) ∧
    ∀ (m : Memory) (params : Params),
      State.construct m params = { powerOn s with mem := m, params := params, vsrCalls := 0 }

/-- nmi() sets the latch and irq(b) the line, power(false) clears powered; register_vsr(a, f) makes a's callback f and keeps every other address's; read_registers() gives PC, S, P with bit 5 set, A, X and Y; nothing else changes. Rests on R174, R179, R180, R181, R222. Clauses that rest on what the spec marks as its own decision or derivation: R174 (decision D24), R180 (decision D23), R181 (decision D23), R222 (decision D22). -/
def Obligations.HostCallsChangeOnlyTheirState : Prop :=
  ∀ (s : State) (b : Bool) (a a' : Word) (cb : Callback), vsrWf s.vsr = true →
    nmi s = { s with nmiLatch := true } ∧ nmi (nmi s) = nmi s ∧
    irq b s = { s with irqLine := b } ∧
    powerOff s = { s with powered := false } ∧
    ({ registerVsr a cb s with vsr := s.vsr } = s ∧ vsrWf (registerVsr a cb s).vsr = true ∧
      (registerVsr a cb s).vsr.lookup a' = if a' = a then some cb else s.vsr.lookup a') ∧
    readRegisters s = ⟨s.pc, s.sp, s.p ||| 0x20, s.a, s.x, s.y⟩

/-- run(n) gives one result at most, and it is the loop of R183: it steps once, returns a status other than Continue at once, returns Continue once cycles have grown by n since the call, and otherwise gives what the run for the cycles left gives from the state reached, however many steps that takes, free instructions included; a refused step ends it with that refusal. A run that returns Continue has grown cycles by at least n, and before its last step by less (unless its first step was its last), so it overshoots by no more than that step cost. Under the NMOS cycle table it always ends, within n + 1 steps. Rests on 48_execution_engine.md section 3, R183. Clauses that rest on what the spec marks as its own decision or derivation: R183 (decision D28). -/
def Obligations.RunStopsAtAStatusOrAfterItsCycles : Prop :=
  ∀ (n : Nat) (s : State),
    (∀ r r', RunGives n s r → RunGives n s r' → r = r') ∧
    (∀ t r, step s = .next t →
      (RunGives n s r ↔
        if t.runState ≠ .running then r = .returned t.runState t
        else if n ≤ t.cycles - s.cycles then r = .returned .running t
        else RunGives (n - (t.cycles - s.cycles)) t r)) ∧
    (∀ e r, step s = .refused e → (RunGives n s r ↔ r = .refused e)) ∧
    (∀ t, RunGives n s (.returned .running t) →
      s.cycles + n ≤ t.cycles ∧ ∃ u, step u = .next t ∧ (u = s ∨ u.cycles < s.cycles + n)) ∧
    (s.params.cycleTable = [] → ∃ r, runWithin (n + 1) n s = some r)

/-- decode_one answers a Disassembly exactly when every byte of the instruction lies in the segment and at or below 0xFFFF, and else OutOfRange with the instruction's own address; the symbol is the caller's label or empty, an illegal byte decodes as `illegal` with length 1, the comment is empty but for Relative instructions, where it is the branch target. Rests on 49_disassembler.md, R187, R188, R189, R192, R194. Clauses that rest on what the spec marks as its own decision or derivation: R188 (decision D26), R189 (decision D26), R192 (decision D26), R194 (decision D27). -/
def Obligations.DecodeOneStaysInItsSegment : Prop :=
  ∀ (seg : Segment) (addr : Nat) (mem : Memory) (symbols : Symbols),
    let op := mem.read addr
    let n := (lookup op).mode.length
    let inside := ∀ k, k < n → seg.lo ≤ addr + k ∧ addr + k ≤ seg.hi ∧ addr + k ≤ 0xFFFF
    (inside → ∃ d, decodeOne seg addr mem symbols = .ok d ∧ d.length = n ∧
      d.dump = dumpText ((List.range n).map fun k => mem.read (addr + k)) ∧
      d.symbol = (symbols.lookup addr).getD "" ∧
      (op ∈ illegalOpcodes → d.text = "illegal" ∧ n = 1) ∧
      ((lookup op).mode ≠ .relative → d.comment = "") ∧
      ((lookup op).mode = .relative →
        d.comment = "$" ++ hexWord (BitVec.ofInt 16 (addr + 2 + (mem.read (addr + 1)).toInt)))) ∧
    (¬inside → decodeOne seg addr mem symbols = .error (.outOfRange addr))

/-- decode_region of length 0 is empty; of a positive length it is the first instruction's result followed, if that succeeded, by the region from the next instruction on to the same end, and it ends with the error if it failed; so it is finite and restartable from any element. Rests on R195. Clauses that rest on what the spec marks as its own decision or derivation: R195 (decision D27). -/
def Obligations.RegionDecodesInstructionByInstruction : Prop :=
  ∀ (seg : Segment) (addr len : Nat) (mem : Memory) (symbols : Symbols),
    decodeRegion seg addr 0 mem symbols = [] ∧
    (decodeRegion seg addr len mem symbols).length ≤ len ∧
    (∀ e, 0 < len → decodeOne seg addr mem symbols = .error e →
      decodeRegion seg addr len mem symbols = [.error e]) ∧
    ∀ d, 0 < len → decodeOne seg addr mem symbols = .ok d →
      0 < d.length ∧
      decodeRegion seg addr len mem symbols =
        .ok d :: decodeRegion seg (addr + d.length) (len - d.length) mem symbols

/-- The source's program at 0x0200 disassembles to the three results of R197, and an instruction of every mode to its row's text in R190. Rests on 49_disassembler.md, R197, R190, R191. Clauses that rest on what the spec marks as its own decision or derivation: R197 (derived), R190 (decision D26), R191 (decision D26). -/
def Obligations.DisassemblyTextOfTheSourceProgram : Prop :=
  (decodeRegion .whole 0x0200 6 (Memory.writeAll [] [(0x0200, 0xA9), (0x0201, 0x05), (0x0202, 0x8D), (0x0203, 0x00),
      (0x0204, 0x03), (0x0205, 0x60)]) [] =
    [.ok ⟨"a9 05", "", "lda #$05", "", 2⟩, .ok ⟨"8d 00 03", "", "sta $0300", "", 3⟩, .ok ⟨"60", "", "rts", "", 1⟩]) ∧
    (let text (bytes : List Byte) : Option (String × String) :=
      match decodeOne .whole 0x0200 (Memory.writeAll [] ((bytes.zipIdx).map fun c => (0x0200 + BitVec.ofNat 16 c.2, c.1))) [] with
      | .ok d => some (d.text, d.comment)
      | .error _ => none
     text [0x0A] = some ("asl a", "") ∧ text [0xA5, 0x10] = some ("lda $10", "") ∧
     text [0xB5, 0x10] = some ("lda $10,x", "") ∧ text [0xB6, 0x10] = some ("ldx $10,y", "") ∧
     text [0xA1, 0x10] = some ("lda ($10,x)", "") ∧ text [0xB1, 0x10] = some ("lda ($10),y", "") ∧
     text [0xF0, 0x05] = some ("beq $05", "$0207") ∧ text [0xBD, 0x00, 0x03] = some ("lda $0300,x", "") ∧
     text [0xB9, 0x00, 0x03] = some ("lda $0300,y", "") ∧ text [0x6C, 0xFC, 0xFF] = some ("jmp ($fffc)", ""))
end

