-- ==== Sys2Proof/Laws/Decode.lean ====
section
/-! SUPPORT. The opcode tables agree: the map by mnemonic (R66) against the map by opcode (R65), and both against the lists
of WellFormed.lean. -/

namespace Sys2Proof

/-- Every opcode of a mnemonic's row is that mnemonic's in the opcode map, in the mode the row says. -/
theorem lookup_of_mem_opcodes (mn : Mnemonic) : ∀ e ∈ mn.opcodes, lookup e.2 = ⟨mn, e.1⟩ := by
  cases mn <;> decide

theorem mem_of_lookup_eq_some {α β : Type} [DecidableEq α] {l : List (α × β)} {a : α} {b : β}
    (h : l.lookup a = some b) : (a, b) ∈ l := by
  induction l with
  | nil => simp at h
  | cons c l ih =>
    obtain ⟨k, w⟩ := c
    by_cases hk : a = k
    · subst hk; simp at h; simp [h]
    · have : (a == k) = false := by simpa using hk
      simp only [List.lookup, this] at h
      exact List.mem_cons_of_mem _ (ih h)

/-- The encoder's table and the decoder's table agree (R65, R66). -/
theorem lookup_opcodeOf {mn : Mnemonic} {mode : Mode} {op : Byte} (h : opcodeOf mn mode = some op) :
    lookup op = ⟨mn, mode⟩ :=
  lookup_of_mem_opcodes mn _ (mem_of_lookup_eq_some h)

/-- A mnemonic of R66 has an opcode in exactly the modes that R70 lists. -/
theorem opcodeOf_isSome {mn : Mnemonic} (hm : mn ≠ .illegal) (mode : Mode) :
    (opcodeOf mn mode).isSome = mn.modes.contains mode := by
  cases mn <;> first | exact absurd rfl hm | (cases mode <;> decide)

/-- The illegal values of the opcode map are those R67 lists. -/
theorem isIllegal_eq (op : Byte) : isIllegal op = illegalOpcodes.contains op := by
  revert op; decide

theorem lookup_of_isIllegal (op : Byte) (h : isIllegal op = true) : lookup op = illegalEntry := by
  revert op; decide

/-- The length of an operand's bytes is its mode's length less the opcode byte. -/
theorem length_operand_bytes (o : Operand) : o.bytes.length + 1 = o.mode.length := by
  cases o <;> rfl

/-- The encoding of an instruction whose mnemonic is one of the 56. -/
theorem shape_of_operand (i : Instr) (o : Operand) (ho : i.operand = o) (hmode : i.mode = o.mode)
    (hop : i.opcode = opcodeOf i.mnemonic i.mode) (hne : (i.mnemonic == .illegal) = false) (h : i.wf = true) :
    ∃ op, i.opcode = some op ∧ encode i = op :: i.operand.bytes ∧ lookup op = ⟨i.mnemonic, i.mode⟩ ∧
      (encode i).length = i.length := by
  have hmn : i.mnemonic ≠ .illegal := by simpa using hne
  have hin : i.mnemonic.modes.contains i.mode = true := by
    unfold Instr.wf at h
    exact (Bool.and_eq_true _ _ ▸ h).1
  obtain ⟨op, hsome⟩ := Option.isSome_iff_exists.mp ((opcodeOf_isSome hmn i.mode).trans hin)
  have henc : encode i = op :: i.operand.bytes := by rw [encode, hop, hsome]
  refine ⟨op, hop.trans hsome, henc, lookup_opcodeOf hsome, ?_⟩
  rw [henc, Instr.length, hmode, ho, List.length_cons, length_operand_bytes]

/-- The encoding of an illegal opcode value. -/
theorem shape_of_illegal (op : Byte) (h : (Instr.illegal op).wf = true) :
    ∃ op', (Instr.illegal op).opcode = some op' ∧ encode (.illegal op) = op' :: (Instr.illegal op).operand.bytes ∧
      lookup op' = ⟨.illegal, .none⟩ ∧ (encode (.illegal op)).length = (Instr.illegal op).length := by
  have hi : isIllegal op = true := by
    rw [isIllegal_eq]
    simpa [Instr.wf, Instr.mnemonic, Instr.mode, Mnemonic.modes] using h
  have ho : (Instr.illegal op).opcode = some op := by simp [Instr.opcode, hi]
  have he : encode (.illegal op) = op :: (Instr.illegal op).operand.bytes := by rw [encode, ho]
  exact ⟨op, ho, he, lookup_of_isIllegal op hi, by rw [he]; rfl⟩

end Sys2Proof
end

