-- ==== Sys2Proof/Laws/Memory.lean ====
section
/-! SUPPORT. Memory operations keep the canonical form, and a write leaves every other address alone. -/

namespace Sys2Proof

theorem Memory.read_cons_ne {a b : Nat} (h : a ≠ b) (v : Byte) (m : Memory) :
    Memory.read (Memory.cons a v m) b = m.read b := by
  unfold Memory.cons
  split
  · rfl
  · simp [Memory.read, h]

/-- A write leaves every other address as it was, whatever the form of the memory. -/
theorem Memory.read_write_ne {a b : Nat} (h : a ≠ b) (v : Byte) (m : Memory) :
    (m.write a v).read b = m.read b := by
  induction m with
  | nil => simp [Memory.write, Memory.read_cons_ne h]
  | cons c m ih =>
    obtain ⟨k, w⟩ := c
    simp only [Memory.write]
    split
    · simp only [Memory.read, ih]
    · split
      · next hk => subst hk; simp [Memory.read_cons_ne h, Memory.read, h]
      · exact Memory.read_cons_ne h v _

theorem Memory.wfFrom_mono {lo lo' : Nat} {m : Memory} (h : lo ≤ lo') (hw : Memory.wfFrom lo' m = true) :
    Memory.wfFrom lo m = true := by
  cases m with
  | nil => rfl
  | cons c m =>
    simp only [Memory.wfFrom, Bool.and_eq_true, decide_eq_true_eq] at hw ⊢
    exact ⟨⟨⟨by omega, hw.1.1.2⟩, hw.1.2⟩, hw.2⟩

theorem Memory.wfFrom_cons {lo a : Nat} {v : Byte} {m : Memory} (hlo : lo ≤ a) (ha : a < 65536)
    (hw : Memory.wfFrom (a + 1) m = true) : Memory.wfFrom lo (Memory.cons a v m) = true := by
  unfold Memory.cons
  split
  · exact Memory.wfFrom_mono (by omega) hw
  · next hv => simp [Memory.wfFrom, hlo, ha, hv, hw]

theorem Memory.wfFrom_write {a : Nat} (ha : a < 65536) (v : Byte) (m : Memory) {lo : Nat} (hlo : lo ≤ a)
    (hw : Memory.wfFrom lo m = true) : Memory.wfFrom lo (m.write a v) = true := by
  induction m generalizing lo with
  | nil => exact Memory.wfFrom_cons hlo ha rfl
  | cons c m ih =>
    obtain ⟨k, w⟩ := c
    have hw' := hw
    simp only [Memory.wfFrom, Bool.and_eq_true, decide_eq_true_eq] at hw
    simp only [Memory.write]
    split
    · next hk => simp [Memory.wfFrom, hw.1.1.1, hw.1.1.2, hw.1.2, ih (by omega) hw.2]
    · split
      · next hk => subst hk; exact Memory.wfFrom_cons hlo ha hw.2
      · next h1 h2 =>
        refine Memory.wfFrom_cons hlo ha ?_
        simp only [Memory.wfFrom, Bool.and_eq_true, decide_eq_true_eq]
        exact ⟨⟨⟨by omega, hw.1.1.2⟩, hw.1.2⟩, hw.2⟩

/-- A store of one byte keeps the canonical form. -/
theorem Memory.wf_write (m : Memory) (a : Word) (v : Byte) (h : m.wf = true) : (m.write a.toNat v).wf = true :=
  Memory.wfFrom_write a.isLt v m (Nat.zero_le _) h

/-- So does a list of stores. -/
theorem Memory.wf_writeAll (m : Memory) (l : List (Word × Byte)) (h : m.wf = true) : (m.writeAll l).wf = true := by
  induction l generalizing m with
  | nil => exact h
  | cons c l ih => exact ih _ (Memory.wf_write m c.1 c.2 h)

theorem Memory.read_of_lt {lo a : Nat} {m : Memory} (hw : Memory.wfFrom lo m = true) (h : a < lo) :
    m.read a = Memory.unlisted := by
  induction m generalizing lo with
  | nil => rfl
  | cons c m ih =>
    obtain ⟨k, w⟩ := c
    simp only [Memory.wfFrom, Bool.and_eq_true, decide_eq_true_eq] at hw
    rw [Memory.read, if_neg (by omega), ih hw.2 (by omega)]

theorem Memory.read_cons_self {a lo : Nat} {m : Memory} (v : Byte) (hw : Memory.wfFrom lo m = true) (h : a < lo) :
    (Memory.cons a v m).read a = v := by
  unfold Memory.cons
  split
  · next hv => rw [Memory.read_of_lt hw h, hv]
  · simp [Memory.read]

/-- A read after a write to the same address gives the byte written, on a memory in canonical form. -/
theorem Memory.read_write_self {lo : Nat} {m : Memory} (hw : Memory.wfFrom lo m = true) (a : Nat) (v : Byte) :
    (m.write a v).read a = v := by
  induction m generalizing lo with
  | nil => exact Memory.read_cons_self (lo := a + 1) v rfl (by omega)
  | cons c m ih =>
    obtain ⟨k, w⟩ := c
    have hw' := hw
    simp only [Memory.wfFrom, Bool.and_eq_true, decide_eq_true_eq] at hw
    simp only [Memory.write]
    split
    · next hk => rw [Memory.read, if_neg (by omega), ih hw.2]
    · split
      · next hk => exact Memory.read_cons_self v hw.2 (by omega)
      · next h1 h2 =>
        refine Memory.read_cons_self (lo := k) v ?_ (by omega)
        simp only [Memory.wfFrom, Bool.and_eq_true, decide_eq_true_eq]
        exact ⟨⟨⟨by omega, hw.1.1.2⟩, hw.1.2⟩, hw.2⟩

namespace Machine

theorem write_wf (s : State) (addr : Word) (v : Byte) (h : s.mem.wf = true) : (s.write addr v).mem.wf = true :=
  Memory.wf_write _ _ _ h

theorem push_wf (s : State) (v : Byte) (h : s.mem.wf = true) : (s.push v).mem.wf = true := Memory.wf_write _ _ _ h

theorem pushWord_wf (s : State) (w : Word) (h : s.mem.wf = true) : (s.pushWord w).mem.wf = true :=
  push_wf _ _ (push_wf _ _ h)

theorem takeInterrupt_wf (s : State) (vec ret : Word) (st : Byte) (h : s.mem.wf = true) :
    (s.takeInterrupt vec ret st).mem.wf = true := push_wf _ _ (pushWord_wf _ _ h)

/-- The memory of State.reset has the canonical form. -/
theorem reset_mem_wf : State.reset.mem.wf = true := rfl

theorem read_write_ne (s : State) {a b : Word} (h : a ≠ b) (v : Byte) : (s.write a v).read b = s.read b :=
  Memory.read_write_ne (fun e => h (BitVec.eq_of_toNat_eq e)) v s.mem

/-- What a write does to every read, on a memory in canonical form. -/
theorem read_write (s : State) (hw : s.mem.wf = true) (a b : Word) (v : Byte) :
    (s.write a v).read b = if b = a then v else s.read b := by
  split
  · next h => subst h; exact Memory.read_write_self hw _ v
  · next h => exact read_write_ne s (Ne.symm h) v

end Machine

end Sys2Proof
end

