-- ==== Sys2Proof/Laws/State.lean ====
section
/-! SUPPORT. One lemma per field per named update of State, each true by unfolding, so that no later proof unfolds an
update. -/

namespace Sys2Proof.Machine

section
variable (s : State)

/-! `State.setA` -/
@[simp] theorem setA_a (v : Byte) : (s.setA v).a = v := rfl
@[simp] theorem setA_x (v : Byte) : (s.setA v).x = s.x := rfl
@[simp] theorem setA_y (v : Byte) : (s.setA v).y = s.y := rfl
@[simp] theorem setA_sp (v : Byte) : (s.setA v).sp = s.sp := rfl
@[simp] theorem setA_p (v : Byte) : (s.setA v).p = s.p := rfl
@[simp] theorem setA_pc (v : Byte) : (s.setA v).pc = s.pc := rfl
@[simp] theorem setA_mem (v : Byte) : (s.setA v).mem = s.mem := rfl
@[simp] theorem setA_nmiLatch (v : Byte) : (s.setA v).nmiLatch = s.nmiLatch := rfl
@[simp] theorem setA_irqLine (v : Byte) : (s.setA v).irqLine = s.irqLine := rfl
@[simp] theorem setA_cycles (v : Byte) : (s.setA v).cycles = s.cycles := rfl
@[simp] theorem setA_stuckCount (v : Byte) : (s.setA v).stuckCount = s.stuckCount := rfl
@[simp] theorem setA_runState (v : Byte) : (s.setA v).runState = s.runState := rfl
@[simp] theorem setA_coverage (v : Byte) : (s.setA v).coverage = s.coverage := rfl
@[simp] theorem setA_vsr (v : Byte) : (s.setA v).vsr = s.vsr := rfl
@[simp] theorem setA_powered (v : Byte) : (s.setA v).powered = s.powered := rfl
@[simp] theorem setA_exitReq (v : Byte) : (s.setA v).exitReq = s.exitReq := rfl
@[simp] theorem setA_vsrCalls (v : Byte) : (s.setA v).vsrCalls = s.vsrCalls := rfl
@[simp] theorem setA_params (v : Byte) : (s.setA v).params = s.params := rfl

/-! `State.setX` -/
@[simp] theorem setX_a (v : Byte) : (s.setX v).a = s.a := rfl
@[simp] theorem setX_x (v : Byte) : (s.setX v).x = v := rfl
@[simp] theorem setX_y (v : Byte) : (s.setX v).y = s.y := rfl
@[simp] theorem setX_sp (v : Byte) : (s.setX v).sp = s.sp := rfl
@[simp] theorem setX_p (v : Byte) : (s.setX v).p = s.p := rfl
@[simp] theorem setX_pc (v : Byte) : (s.setX v).pc = s.pc := rfl
@[simp] theorem setX_mem (v : Byte) : (s.setX v).mem = s.mem := rfl
@[simp] theorem setX_nmiLatch (v : Byte) : (s.setX v).nmiLatch = s.nmiLatch := rfl
@[simp] theorem setX_irqLine (v : Byte) : (s.setX v).irqLine = s.irqLine := rfl
@[simp] theorem setX_cycles (v : Byte) : (s.setX v).cycles = s.cycles := rfl
@[simp] theorem setX_stuckCount (v : Byte) : (s.setX v).stuckCount = s.stuckCount := rfl
@[simp] theorem setX_runState (v : Byte) : (s.setX v).runState = s.runState := rfl
@[simp] theorem setX_coverage (v : Byte) : (s.setX v).coverage = s.coverage := rfl
@[simp] theorem setX_vsr (v : Byte) : (s.setX v).vsr = s.vsr := rfl
@[simp] theorem setX_powered (v : Byte) : (s.setX v).powered = s.powered := rfl
@[simp] theorem setX_exitReq (v : Byte) : (s.setX v).exitReq = s.exitReq := rfl
@[simp] theorem setX_vsrCalls (v : Byte) : (s.setX v).vsrCalls = s.vsrCalls := rfl
@[simp] theorem setX_params (v : Byte) : (s.setX v).params = s.params := rfl

/-! `State.setY` -/
@[simp] theorem setY_a (v : Byte) : (s.setY v).a = s.a := rfl
@[simp] theorem setY_x (v : Byte) : (s.setY v).x = s.x := rfl
@[simp] theorem setY_y (v : Byte) : (s.setY v).y = v := rfl
@[simp] theorem setY_sp (v : Byte) : (s.setY v).sp = s.sp := rfl
@[simp] theorem setY_p (v : Byte) : (s.setY v).p = s.p := rfl
@[simp] theorem setY_pc (v : Byte) : (s.setY v).pc = s.pc := rfl
@[simp] theorem setY_mem (v : Byte) : (s.setY v).mem = s.mem := rfl
@[simp] theorem setY_nmiLatch (v : Byte) : (s.setY v).nmiLatch = s.nmiLatch := rfl
@[simp] theorem setY_irqLine (v : Byte) : (s.setY v).irqLine = s.irqLine := rfl
@[simp] theorem setY_cycles (v : Byte) : (s.setY v).cycles = s.cycles := rfl
@[simp] theorem setY_stuckCount (v : Byte) : (s.setY v).stuckCount = s.stuckCount := rfl
@[simp] theorem setY_runState (v : Byte) : (s.setY v).runState = s.runState := rfl
@[simp] theorem setY_coverage (v : Byte) : (s.setY v).coverage = s.coverage := rfl
@[simp] theorem setY_vsr (v : Byte) : (s.setY v).vsr = s.vsr := rfl
@[simp] theorem setY_powered (v : Byte) : (s.setY v).powered = s.powered := rfl
@[simp] theorem setY_exitReq (v : Byte) : (s.setY v).exitReq = s.exitReq := rfl
@[simp] theorem setY_vsrCalls (v : Byte) : (s.setY v).vsrCalls = s.vsrCalls := rfl
@[simp] theorem setY_params (v : Byte) : (s.setY v).params = s.params := rfl

/-! `State.setS` -/
@[simp] theorem setS_a (v : Byte) : (s.setS v).a = s.a := rfl
@[simp] theorem setS_x (v : Byte) : (s.setS v).x = s.x := rfl
@[simp] theorem setS_y (v : Byte) : (s.setS v).y = s.y := rfl
@[simp] theorem setS_sp (v : Byte) : (s.setS v).sp = v := rfl
@[simp] theorem setS_p (v : Byte) : (s.setS v).p = s.p := rfl
@[simp] theorem setS_pc (v : Byte) : (s.setS v).pc = s.pc := rfl
@[simp] theorem setS_mem (v : Byte) : (s.setS v).mem = s.mem := rfl
@[simp] theorem setS_nmiLatch (v : Byte) : (s.setS v).nmiLatch = s.nmiLatch := rfl
@[simp] theorem setS_irqLine (v : Byte) : (s.setS v).irqLine = s.irqLine := rfl
@[simp] theorem setS_cycles (v : Byte) : (s.setS v).cycles = s.cycles := rfl
@[simp] theorem setS_stuckCount (v : Byte) : (s.setS v).stuckCount = s.stuckCount := rfl
@[simp] theorem setS_runState (v : Byte) : (s.setS v).runState = s.runState := rfl
@[simp] theorem setS_coverage (v : Byte) : (s.setS v).coverage = s.coverage := rfl
@[simp] theorem setS_vsr (v : Byte) : (s.setS v).vsr = s.vsr := rfl
@[simp] theorem setS_powered (v : Byte) : (s.setS v).powered = s.powered := rfl
@[simp] theorem setS_exitReq (v : Byte) : (s.setS v).exitReq = s.exitReq := rfl
@[simp] theorem setS_vsrCalls (v : Byte) : (s.setS v).vsrCalls = s.vsrCalls := rfl
@[simp] theorem setS_params (v : Byte) : (s.setS v).params = s.params := rfl

/-! `State.setPc` -/
@[simp] theorem setPc_a (w : Word) : (s.setPc w).a = s.a := rfl
@[simp] theorem setPc_x (w : Word) : (s.setPc w).x = s.x := rfl
@[simp] theorem setPc_y (w : Word) : (s.setPc w).y = s.y := rfl
@[simp] theorem setPc_sp (w : Word) : (s.setPc w).sp = s.sp := rfl
@[simp] theorem setPc_p (w : Word) : (s.setPc w).p = s.p := rfl
@[simp] theorem setPc_pc (w : Word) : (s.setPc w).pc = w := rfl
@[simp] theorem setPc_mem (w : Word) : (s.setPc w).mem = s.mem := rfl
@[simp] theorem setPc_nmiLatch (w : Word) : (s.setPc w).nmiLatch = s.nmiLatch := rfl
@[simp] theorem setPc_irqLine (w : Word) : (s.setPc w).irqLine = s.irqLine := rfl
@[simp] theorem setPc_cycles (w : Word) : (s.setPc w).cycles = s.cycles := rfl
@[simp] theorem setPc_stuckCount (w : Word) : (s.setPc w).stuckCount = s.stuckCount := rfl
@[simp] theorem setPc_runState (w : Word) : (s.setPc w).runState = s.runState := rfl
@[simp] theorem setPc_coverage (w : Word) : (s.setPc w).coverage = s.coverage := rfl
@[simp] theorem setPc_vsr (w : Word) : (s.setPc w).vsr = s.vsr := rfl
@[simp] theorem setPc_powered (w : Word) : (s.setPc w).powered = s.powered := rfl
@[simp] theorem setPc_exitReq (w : Word) : (s.setPc w).exitReq = s.exitReq := rfl
@[simp] theorem setPc_vsrCalls (w : Word) : (s.setPc w).vsrCalls = s.vsrCalls := rfl
@[simp] theorem setPc_params (w : Word) : (s.setPc w).params = s.params := rfl

/-! `State.setP` -/
@[simp] theorem setP_a (v : Byte) : (s.setP v).a = s.a := rfl
@[simp] theorem setP_x (v : Byte) : (s.setP v).x = s.x := rfl
@[simp] theorem setP_y (v : Byte) : (s.setP v).y = s.y := rfl
@[simp] theorem setP_sp (v : Byte) : (s.setP v).sp = s.sp := rfl
@[simp] theorem setP_p (v : Byte) : (s.setP v).p = v ||| bit5 := rfl
@[simp] theorem setP_pc (v : Byte) : (s.setP v).pc = s.pc := rfl
@[simp] theorem setP_mem (v : Byte) : (s.setP v).mem = s.mem := rfl
@[simp] theorem setP_nmiLatch (v : Byte) : (s.setP v).nmiLatch = s.nmiLatch := rfl
@[simp] theorem setP_irqLine (v : Byte) : (s.setP v).irqLine = s.irqLine := rfl
@[simp] theorem setP_cycles (v : Byte) : (s.setP v).cycles = s.cycles := rfl
@[simp] theorem setP_stuckCount (v : Byte) : (s.setP v).stuckCount = s.stuckCount := rfl
@[simp] theorem setP_runState (v : Byte) : (s.setP v).runState = s.runState := rfl
@[simp] theorem setP_coverage (v : Byte) : (s.setP v).coverage = s.coverage := rfl
@[simp] theorem setP_vsr (v : Byte) : (s.setP v).vsr = s.vsr := rfl
@[simp] theorem setP_powered (v : Byte) : (s.setP v).powered = s.powered := rfl
@[simp] theorem setP_exitReq (v : Byte) : (s.setP v).exitReq = s.exitReq := rfl
@[simp] theorem setP_vsrCalls (v : Byte) : (s.setP v).vsrCalls = s.vsrCalls := rfl
@[simp] theorem setP_params (v : Byte) : (s.setP v).params = s.params := rfl

/-! `State.updateP` -/
@[simp] theorem updateP_a (g : Byte → Byte) : (s.updateP g).a = s.a := rfl
@[simp] theorem updateP_x (g : Byte → Byte) : (s.updateP g).x = s.x := rfl
@[simp] theorem updateP_y (g : Byte → Byte) : (s.updateP g).y = s.y := rfl
@[simp] theorem updateP_sp (g : Byte → Byte) : (s.updateP g).sp = s.sp := rfl
@[simp] theorem updateP_p (g : Byte → Byte) : (s.updateP g).p = g s.p := rfl
@[simp] theorem updateP_pc (g : Byte → Byte) : (s.updateP g).pc = s.pc := rfl
@[simp] theorem updateP_mem (g : Byte → Byte) : (s.updateP g).mem = s.mem := rfl
@[simp] theorem updateP_nmiLatch (g : Byte → Byte) : (s.updateP g).nmiLatch = s.nmiLatch := rfl
@[simp] theorem updateP_irqLine (g : Byte → Byte) : (s.updateP g).irqLine = s.irqLine := rfl
@[simp] theorem updateP_cycles (g : Byte → Byte) : (s.updateP g).cycles = s.cycles := rfl
@[simp] theorem updateP_stuckCount (g : Byte → Byte) : (s.updateP g).stuckCount = s.stuckCount := rfl
@[simp] theorem updateP_runState (g : Byte → Byte) : (s.updateP g).runState = s.runState := rfl
@[simp] theorem updateP_coverage (g : Byte → Byte) : (s.updateP g).coverage = s.coverage := rfl
@[simp] theorem updateP_vsr (g : Byte → Byte) : (s.updateP g).vsr = s.vsr := rfl
@[simp] theorem updateP_powered (g : Byte → Byte) : (s.updateP g).powered = s.powered := rfl
@[simp] theorem updateP_exitReq (g : Byte → Byte) : (s.updateP g).exitReq = s.exitReq := rfl
@[simp] theorem updateP_vsrCalls (g : Byte → Byte) : (s.updateP g).vsrCalls = s.vsrCalls := rfl
@[simp] theorem updateP_params (g : Byte → Byte) : (s.updateP g).params = s.params := rfl

/-! `State.setFlag` -/
@[simp] theorem setFlag_a (f : Flag) (on : Bool) : (s.setFlag f on).a = s.a := rfl
@[simp] theorem setFlag_x (f : Flag) (on : Bool) : (s.setFlag f on).x = s.x := rfl
@[simp] theorem setFlag_y (f : Flag) (on : Bool) : (s.setFlag f on).y = s.y := rfl
@[simp] theorem setFlag_sp (f : Flag) (on : Bool) : (s.setFlag f on).sp = s.sp := rfl
@[simp] theorem setFlag_p (f : Flag) (on : Bool) : (s.setFlag f on).p = putFlag f on s.p := rfl
@[simp] theorem setFlag_pc (f : Flag) (on : Bool) : (s.setFlag f on).pc = s.pc := rfl
@[simp] theorem setFlag_mem (f : Flag) (on : Bool) : (s.setFlag f on).mem = s.mem := rfl
@[simp] theorem setFlag_nmiLatch (f : Flag) (on : Bool) : (s.setFlag f on).nmiLatch = s.nmiLatch := rfl
@[simp] theorem setFlag_irqLine (f : Flag) (on : Bool) : (s.setFlag f on).irqLine = s.irqLine := rfl
@[simp] theorem setFlag_cycles (f : Flag) (on : Bool) : (s.setFlag f on).cycles = s.cycles := rfl
@[simp] theorem setFlag_stuckCount (f : Flag) (on : Bool) : (s.setFlag f on).stuckCount = s.stuckCount := rfl
@[simp] theorem setFlag_runState (f : Flag) (on : Bool) : (s.setFlag f on).runState = s.runState := rfl
@[simp] theorem setFlag_coverage (f : Flag) (on : Bool) : (s.setFlag f on).coverage = s.coverage := rfl
@[simp] theorem setFlag_vsr (f : Flag) (on : Bool) : (s.setFlag f on).vsr = s.vsr := rfl
@[simp] theorem setFlag_powered (f : Flag) (on : Bool) : (s.setFlag f on).powered = s.powered := rfl
@[simp] theorem setFlag_exitReq (f : Flag) (on : Bool) : (s.setFlag f on).exitReq = s.exitReq := rfl
@[simp] theorem setFlag_vsrCalls (f : Flag) (on : Bool) : (s.setFlag f on).vsrCalls = s.vsrCalls := rfl
@[simp] theorem setFlag_params (f : Flag) (on : Bool) : (s.setFlag f on).params = s.params := rfl

/-! `State.setNZ` -/
@[simp] theorem setNZ_a (v : Byte) : (s.setNZ v).a = s.a := rfl
@[simp] theorem setNZ_x (v : Byte) : (s.setNZ v).x = s.x := rfl
@[simp] theorem setNZ_y (v : Byte) : (s.setNZ v).y = s.y := rfl
@[simp] theorem setNZ_sp (v : Byte) : (s.setNZ v).sp = s.sp := rfl
@[simp] theorem setNZ_p (v : Byte) : (s.setNZ v).p = putNZ v s.p := rfl
@[simp] theorem setNZ_pc (v : Byte) : (s.setNZ v).pc = s.pc := rfl
@[simp] theorem setNZ_mem (v : Byte) : (s.setNZ v).mem = s.mem := rfl
@[simp] theorem setNZ_nmiLatch (v : Byte) : (s.setNZ v).nmiLatch = s.nmiLatch := rfl
@[simp] theorem setNZ_irqLine (v : Byte) : (s.setNZ v).irqLine = s.irqLine := rfl
@[simp] theorem setNZ_cycles (v : Byte) : (s.setNZ v).cycles = s.cycles := rfl
@[simp] theorem setNZ_stuckCount (v : Byte) : (s.setNZ v).stuckCount = s.stuckCount := rfl
@[simp] theorem setNZ_runState (v : Byte) : (s.setNZ v).runState = s.runState := rfl
@[simp] theorem setNZ_coverage (v : Byte) : (s.setNZ v).coverage = s.coverage := rfl
@[simp] theorem setNZ_vsr (v : Byte) : (s.setNZ v).vsr = s.vsr := rfl
@[simp] theorem setNZ_powered (v : Byte) : (s.setNZ v).powered = s.powered := rfl
@[simp] theorem setNZ_exitReq (v : Byte) : (s.setNZ v).exitReq = s.exitReq := rfl
@[simp] theorem setNZ_vsrCalls (v : Byte) : (s.setNZ v).vsrCalls = s.vsrCalls := rfl
@[simp] theorem setNZ_params (v : Byte) : (s.setNZ v).params = s.params := rfl

/-! `State.putAlu` -/
@[simp] theorem putAlu_a (r : AluResult) : (s.putAlu r).a = r.value := rfl
@[simp] theorem putAlu_x (r : AluResult) : (s.putAlu r).x = s.x := rfl
@[simp] theorem putAlu_y (r : AluResult) : (s.putAlu r).y = s.y := rfl
@[simp] theorem putAlu_sp (r : AluResult) : (s.putAlu r).sp = s.sp := rfl
@[simp] theorem putAlu_p (r : AluResult) : (s.putAlu r).p = r.putFlags s.p := rfl
@[simp] theorem putAlu_pc (r : AluResult) : (s.putAlu r).pc = s.pc := rfl
@[simp] theorem putAlu_mem (r : AluResult) : (s.putAlu r).mem = s.mem := rfl
@[simp] theorem putAlu_nmiLatch (r : AluResult) : (s.putAlu r).nmiLatch = s.nmiLatch := rfl
@[simp] theorem putAlu_irqLine (r : AluResult) : (s.putAlu r).irqLine = s.irqLine := rfl
@[simp] theorem putAlu_cycles (r : AluResult) : (s.putAlu r).cycles = s.cycles := rfl
@[simp] theorem putAlu_stuckCount (r : AluResult) : (s.putAlu r).stuckCount = s.stuckCount := rfl
@[simp] theorem putAlu_runState (r : AluResult) : (s.putAlu r).runState = s.runState := rfl
@[simp] theorem putAlu_coverage (r : AluResult) : (s.putAlu r).coverage = s.coverage := rfl
@[simp] theorem putAlu_vsr (r : AluResult) : (s.putAlu r).vsr = s.vsr := rfl
@[simp] theorem putAlu_powered (r : AluResult) : (s.putAlu r).powered = s.powered := rfl
@[simp] theorem putAlu_exitReq (r : AluResult) : (s.putAlu r).exitReq = s.exitReq := rfl
@[simp] theorem putAlu_vsrCalls (r : AluResult) : (s.putAlu r).vsrCalls = s.vsrCalls := rfl
@[simp] theorem putAlu_params (r : AluResult) : (s.putAlu r).params = s.params := rfl

/-! `State.write` -/
@[simp] theorem write_a (addr : Word) (v : Byte) : (s.write addr v).a = s.a := rfl
@[simp] theorem write_x (addr : Word) (v : Byte) : (s.write addr v).x = s.x := rfl
@[simp] theorem write_y (addr : Word) (v : Byte) : (s.write addr v).y = s.y := rfl
@[simp] theorem write_sp (addr : Word) (v : Byte) : (s.write addr v).sp = s.sp := rfl
@[simp] theorem write_p (addr : Word) (v : Byte) : (s.write addr v).p = s.p := rfl
@[simp] theorem write_pc (addr : Word) (v : Byte) : (s.write addr v).pc = s.pc := rfl
@[simp] theorem write_mem (addr : Word) (v : Byte) : (s.write addr v).mem = s.mem.write addr.toNat v := rfl
@[simp] theorem write_nmiLatch (addr : Word) (v : Byte) : (s.write addr v).nmiLatch = s.nmiLatch := rfl
@[simp] theorem write_irqLine (addr : Word) (v : Byte) : (s.write addr v).irqLine = s.irqLine := rfl
@[simp] theorem write_cycles (addr : Word) (v : Byte) : (s.write addr v).cycles = s.cycles := rfl
@[simp] theorem write_stuckCount (addr : Word) (v : Byte) : (s.write addr v).stuckCount = s.stuckCount := rfl
@[simp] theorem write_runState (addr : Word) (v : Byte) : (s.write addr v).runState = s.runState := rfl
@[simp] theorem write_coverage (addr : Word) (v : Byte) : (s.write addr v).coverage = s.coverage := rfl
@[simp] theorem write_vsr (addr : Word) (v : Byte) : (s.write addr v).vsr = s.vsr := rfl
@[simp] theorem write_powered (addr : Word) (v : Byte) : (s.write addr v).powered = s.powered := rfl
@[simp] theorem write_exitReq (addr : Word) (v : Byte) : (s.write addr v).exitReq = s.exitReq := rfl
@[simp] theorem write_vsrCalls (addr : Word) (v : Byte) : (s.write addr v).vsrCalls = s.vsrCalls := rfl
@[simp] theorem write_params (addr : Word) (v : Byte) : (s.write addr v).params = s.params := rfl

/-! `State.push` -/
@[simp] theorem push_a (v : Byte) : (s.push v).a = s.a := rfl
@[simp] theorem push_x (v : Byte) : (s.push v).x = s.x := rfl
@[simp] theorem push_y (v : Byte) : (s.push v).y = s.y := rfl
@[simp] theorem push_sp (v : Byte) : (s.push v).sp = s.sp - 1 := rfl
@[simp] theorem push_p (v : Byte) : (s.push v).p = s.p := rfl
@[simp] theorem push_pc (v : Byte) : (s.push v).pc = s.pc := rfl
@[simp] theorem push_mem (v : Byte) : (s.push v).mem = s.mem.write (stackAddr s.sp).toNat v := rfl
@[simp] theorem push_nmiLatch (v : Byte) : (s.push v).nmiLatch = s.nmiLatch := rfl
@[simp] theorem push_irqLine (v : Byte) : (s.push v).irqLine = s.irqLine := rfl
@[simp] theorem push_cycles (v : Byte) : (s.push v).cycles = s.cycles := rfl
@[simp] theorem push_stuckCount (v : Byte) : (s.push v).stuckCount = s.stuckCount := rfl
@[simp] theorem push_runState (v : Byte) : (s.push v).runState = s.runState := rfl
@[simp] theorem push_coverage (v : Byte) : (s.push v).coverage = s.coverage := rfl
@[simp] theorem push_vsr (v : Byte) : (s.push v).vsr = s.vsr := rfl
@[simp] theorem push_powered (v : Byte) : (s.push v).powered = s.powered := rfl
@[simp] theorem push_exitReq (v : Byte) : (s.push v).exitReq = s.exitReq := rfl
@[simp] theorem push_vsrCalls (v : Byte) : (s.push v).vsrCalls = s.vsrCalls := rfl
@[simp] theorem push_params (v : Byte) : (s.push v).params = s.params := rfl

/-! `State.pushWord` -/
@[simp] theorem pushWord_a (w : Word) : (s.pushWord w).a = s.a := by simp only [State.pushWord, push_a]
@[simp] theorem pushWord_x (w : Word) : (s.pushWord w).x = s.x := by simp only [State.pushWord, push_x]
@[simp] theorem pushWord_y (w : Word) : (s.pushWord w).y = s.y := by simp only [State.pushWord, push_y]
@[simp] theorem pushWord_sp (w : Word) : (s.pushWord w).sp = s.sp - 1 - 1 := by simp only [State.pushWord, push_sp]
@[simp] theorem pushWord_p (w : Word) : (s.pushWord w).p = s.p := by simp only [State.pushWord, push_p]
@[simp] theorem pushWord_pc (w : Word) : (s.pushWord w).pc = s.pc := by simp only [State.pushWord, push_pc]
@[simp] theorem pushWord_mem (w : Word) : (s.pushWord w).mem = (s.mem.write (stackAddr s.sp).toNat (hiByte w)).write (stackAddr (s.sp - 1)).toNat (loByte w) := by simp only [State.pushWord, push_mem, push_sp]
@[simp] theorem pushWord_nmiLatch (w : Word) : (s.pushWord w).nmiLatch = s.nmiLatch := by simp only [State.pushWord, push_nmiLatch]
@[simp] theorem pushWord_irqLine (w : Word) : (s.pushWord w).irqLine = s.irqLine := by simp only [State.pushWord, push_irqLine]
@[simp] theorem pushWord_cycles (w : Word) : (s.pushWord w).cycles = s.cycles := by simp only [State.pushWord, push_cycles]
@[simp] theorem pushWord_stuckCount (w : Word) : (s.pushWord w).stuckCount = s.stuckCount := by simp only [State.pushWord, push_stuckCount]
@[simp] theorem pushWord_runState (w : Word) : (s.pushWord w).runState = s.runState := by simp only [State.pushWord, push_runState]
@[simp] theorem pushWord_coverage (w : Word) : (s.pushWord w).coverage = s.coverage := by simp only [State.pushWord, push_coverage]
@[simp] theorem pushWord_vsr (w : Word) : (s.pushWord w).vsr = s.vsr := by simp only [State.pushWord, push_vsr]
@[simp] theorem pushWord_powered (w : Word) : (s.pushWord w).powered = s.powered := by simp only [State.pushWord, push_powered]
@[simp] theorem pushWord_exitReq (w : Word) : (s.pushWord w).exitReq = s.exitReq := by simp only [State.pushWord, push_exitReq]
@[simp] theorem pushWord_vsrCalls (w : Word) : (s.pushWord w).vsrCalls = s.vsrCalls := by simp only [State.pushWord, push_vsrCalls]
@[simp] theorem pushWord_params (w : Word) : (s.pushWord w).params = s.params := by simp only [State.pushWord, push_params]

/-! `State.loadPc` -/
@[simp] theorem loadPc_a (vec : Word) : (s.loadPc vec).a = s.a := rfl
@[simp] theorem loadPc_x (vec : Word) : (s.loadPc vec).x = s.x := rfl
@[simp] theorem loadPc_y (vec : Word) : (s.loadPc vec).y = s.y := rfl
@[simp] theorem loadPc_sp (vec : Word) : (s.loadPc vec).sp = s.sp := rfl
@[simp] theorem loadPc_p (vec : Word) : (s.loadPc vec).p = s.p := rfl
@[simp] theorem loadPc_pc (vec : Word) : (s.loadPc vec).pc = s.read16 vec := rfl
@[simp] theorem loadPc_mem (vec : Word) : (s.loadPc vec).mem = s.mem := rfl
@[simp] theorem loadPc_nmiLatch (vec : Word) : (s.loadPc vec).nmiLatch = s.nmiLatch := rfl
@[simp] theorem loadPc_irqLine (vec : Word) : (s.loadPc vec).irqLine = s.irqLine := rfl
@[simp] theorem loadPc_cycles (vec : Word) : (s.loadPc vec).cycles = s.cycles := rfl
@[simp] theorem loadPc_stuckCount (vec : Word) : (s.loadPc vec).stuckCount = s.stuckCount := rfl
@[simp] theorem loadPc_runState (vec : Word) : (s.loadPc vec).runState = s.runState := rfl
@[simp] theorem loadPc_coverage (vec : Word) : (s.loadPc vec).coverage = s.coverage := rfl
@[simp] theorem loadPc_vsr (vec : Word) : (s.loadPc vec).vsr = s.vsr := rfl
@[simp] theorem loadPc_powered (vec : Word) : (s.loadPc vec).powered = s.powered := rfl
@[simp] theorem loadPc_exitReq (vec : Word) : (s.loadPc vec).exitReq = s.exitReq := rfl
@[simp] theorem loadPc_vsrCalls (vec : Word) : (s.loadPc vec).vsrCalls = s.vsrCalls := rfl
@[simp] theorem loadPc_params (vec : Word) : (s.loadPc vec).params = s.params := rfl

/-! `State.addCycles` -/
@[simp] theorem addCycles_a (n : Nat) : (s.addCycles n).a = s.a := rfl
@[simp] theorem addCycles_x (n : Nat) : (s.addCycles n).x = s.x := rfl
@[simp] theorem addCycles_y (n : Nat) : (s.addCycles n).y = s.y := rfl
@[simp] theorem addCycles_sp (n : Nat) : (s.addCycles n).sp = s.sp := rfl
@[simp] theorem addCycles_p (n : Nat) : (s.addCycles n).p = s.p := rfl
@[simp] theorem addCycles_pc (n : Nat) : (s.addCycles n).pc = s.pc := rfl
@[simp] theorem addCycles_mem (n : Nat) : (s.addCycles n).mem = s.mem := rfl
@[simp] theorem addCycles_nmiLatch (n : Nat) : (s.addCycles n).nmiLatch = s.nmiLatch := rfl
@[simp] theorem addCycles_irqLine (n : Nat) : (s.addCycles n).irqLine = s.irqLine := rfl
@[simp] theorem addCycles_cycles (n : Nat) : (s.addCycles n).cycles = s.cycles + n := rfl
@[simp] theorem addCycles_stuckCount (n : Nat) : (s.addCycles n).stuckCount = s.stuckCount := rfl
@[simp] theorem addCycles_runState (n : Nat) : (s.addCycles n).runState = s.runState := rfl
@[simp] theorem addCycles_coverage (n : Nat) : (s.addCycles n).coverage = s.coverage := rfl
@[simp] theorem addCycles_vsr (n : Nat) : (s.addCycles n).vsr = s.vsr := rfl
@[simp] theorem addCycles_powered (n : Nat) : (s.addCycles n).powered = s.powered := rfl
@[simp] theorem addCycles_exitReq (n : Nat) : (s.addCycles n).exitReq = s.exitReq := rfl
@[simp] theorem addCycles_vsrCalls (n : Nat) : (s.addCycles n).vsrCalls = s.vsrCalls := rfl
@[simp] theorem addCycles_params (n : Nat) : (s.addCycles n).params = s.params := rfl

/-! `State.book` -/
@[simp] theorem book_a (op : Byte) (extra : Nat) : (s.book op extra).a = s.a := rfl
@[simp] theorem book_x (op : Byte) (extra : Nat) : (s.book op extra).x = s.x := rfl
@[simp] theorem book_y (op : Byte) (extra : Nat) : (s.book op extra).y = s.y := rfl
@[simp] theorem book_sp (op : Byte) (extra : Nat) : (s.book op extra).sp = s.sp := rfl
@[simp] theorem book_p (op : Byte) (extra : Nat) : (s.book op extra).p = s.p := rfl
@[simp] theorem book_pc (op : Byte) (extra : Nat) : (s.book op extra).pc = s.pc := rfl
@[simp] theorem book_mem (op : Byte) (extra : Nat) : (s.book op extra).mem = s.mem := rfl
@[simp] theorem book_nmiLatch (op : Byte) (extra : Nat) : (s.book op extra).nmiLatch = s.nmiLatch := rfl
@[simp] theorem book_irqLine (op : Byte) (extra : Nat) : (s.book op extra).irqLine = s.irqLine := rfl
@[simp] theorem book_cycles (op : Byte) (extra : Nat) : (s.book op extra).cycles = s.cycles + ((s.params.cycleRow op).base + extra) := rfl
@[simp] theorem book_stuckCount (op : Byte) (extra : Nat) : (s.book op extra).stuckCount = s.stuckCount := rfl
@[simp] theorem book_runState (op : Byte) (extra : Nat) : (s.book op extra).runState = s.runState := rfl
@[simp] theorem book_coverage (op : Byte) (extra : Nat) : (s.book op extra).coverage = mark op s.coverage := rfl
@[simp] theorem book_vsr (op : Byte) (extra : Nat) : (s.book op extra).vsr = s.vsr := rfl
@[simp] theorem book_powered (op : Byte) (extra : Nat) : (s.book op extra).powered = s.powered := rfl
@[simp] theorem book_exitReq (op : Byte) (extra : Nat) : (s.book op extra).exitReq = s.exitReq := rfl
@[simp] theorem book_vsrCalls (op : Byte) (extra : Nat) : (s.book op extra).vsrCalls = s.vsrCalls := rfl
@[simp] theorem book_params (op : Byte) (extra : Nat) : (s.book op extra).params = s.params := rfl

/-! `State.returnFromSubroutine` -/

theorem returnFromSubroutine_eq : s.returnFromSubroutine =
    { s with
        sp := s.sp + 1 + 1,
        pc := concat (s.read (stackAddr (s.sp + 1 + 1))) (s.read (stackAddr (s.sp + 1))) + 1 } := rfl

@[simp] theorem returnFromSubroutine_a : s.returnFromSubroutine.a = s.a := by rw [returnFromSubroutine_eq]
@[simp] theorem returnFromSubroutine_x : s.returnFromSubroutine.x = s.x := by rw [returnFromSubroutine_eq]
@[simp] theorem returnFromSubroutine_y : s.returnFromSubroutine.y = s.y := by rw [returnFromSubroutine_eq]
@[simp] theorem returnFromSubroutine_sp : s.returnFromSubroutine.sp = s.sp + 1 + 1 := by rw [returnFromSubroutine_eq]
@[simp] theorem returnFromSubroutine_p : s.returnFromSubroutine.p = s.p := by rw [returnFromSubroutine_eq]
@[simp] theorem returnFromSubroutine_pc : s.returnFromSubroutine.pc = concat (s.read (stackAddr (s.sp + 1 + 1))) (s.read (stackAddr (s.sp + 1))) + 1 := by rw [returnFromSubroutine_eq]
@[simp] theorem returnFromSubroutine_mem : s.returnFromSubroutine.mem = s.mem := by rw [returnFromSubroutine_eq]
@[simp] theorem returnFromSubroutine_nmiLatch : s.returnFromSubroutine.nmiLatch = s.nmiLatch := by rw [returnFromSubroutine_eq]
@[simp] theorem returnFromSubroutine_irqLine : s.returnFromSubroutine.irqLine = s.irqLine := by rw [returnFromSubroutine_eq]
@[simp] theorem returnFromSubroutine_cycles : s.returnFromSubroutine.cycles = s.cycles := by rw [returnFromSubroutine_eq]
@[simp] theorem returnFromSubroutine_stuckCount : s.returnFromSubroutine.stuckCount = s.stuckCount := by rw [returnFromSubroutine_eq]
@[simp] theorem returnFromSubroutine_runState : s.returnFromSubroutine.runState = s.runState := by rw [returnFromSubroutine_eq]
@[simp] theorem returnFromSubroutine_coverage : s.returnFromSubroutine.coverage = s.coverage := by rw [returnFromSubroutine_eq]
@[simp] theorem returnFromSubroutine_vsr : s.returnFromSubroutine.vsr = s.vsr := by rw [returnFromSubroutine_eq]
@[simp] theorem returnFromSubroutine_powered : s.returnFromSubroutine.powered = s.powered := by rw [returnFromSubroutine_eq]
@[simp] theorem returnFromSubroutine_exitReq : s.returnFromSubroutine.exitReq = s.exitReq := by rw [returnFromSubroutine_eq]
@[simp] theorem returnFromSubroutine_vsrCalls : s.returnFromSubroutine.vsrCalls = s.vsrCalls := by rw [returnFromSubroutine_eq]
@[simp] theorem returnFromSubroutine_params : s.returnFromSubroutine.params = s.params := by rw [returnFromSubroutine_eq]

/-! `State.clearExit` -/

theorem clearExit_eq : s.clearExit =
    { s with
        exitReq := false } := rfl

@[simp] theorem clearExit_a : s.clearExit.a = s.a := by rw [clearExit_eq]
@[simp] theorem clearExit_x : s.clearExit.x = s.x := by rw [clearExit_eq]
@[simp] theorem clearExit_y : s.clearExit.y = s.y := by rw [clearExit_eq]
@[simp] theorem clearExit_sp : s.clearExit.sp = s.sp := by rw [clearExit_eq]
@[simp] theorem clearExit_p : s.clearExit.p = s.p := by rw [clearExit_eq]
@[simp] theorem clearExit_pc : s.clearExit.pc = s.pc := by rw [clearExit_eq]
@[simp] theorem clearExit_mem : s.clearExit.mem = s.mem := by rw [clearExit_eq]
@[simp] theorem clearExit_nmiLatch : s.clearExit.nmiLatch = s.nmiLatch := by rw [clearExit_eq]
@[simp] theorem clearExit_irqLine : s.clearExit.irqLine = s.irqLine := by rw [clearExit_eq]
@[simp] theorem clearExit_cycles : s.clearExit.cycles = s.cycles := by rw [clearExit_eq]
@[simp] theorem clearExit_stuckCount : s.clearExit.stuckCount = s.stuckCount := by rw [clearExit_eq]
@[simp] theorem clearExit_runState : s.clearExit.runState = s.runState := by rw [clearExit_eq]
@[simp] theorem clearExit_coverage : s.clearExit.coverage = s.coverage := by rw [clearExit_eq]
@[simp] theorem clearExit_vsr : s.clearExit.vsr = s.vsr := by rw [clearExit_eq]
@[simp] theorem clearExit_powered : s.clearExit.powered = s.powered := by rw [clearExit_eq]
@[simp] theorem clearExit_exitReq : s.clearExit.exitReq = false := by rw [clearExit_eq]
@[simp] theorem clearExit_vsrCalls : s.clearExit.vsrCalls = s.vsrCalls := by rw [clearExit_eq]
@[simp] theorem clearExit_params : s.clearExit.params = s.params := by rw [clearExit_eq]

/-! `State.returnFromInterrupt` -/

theorem returnFromInterrupt_eq : s.returnFromInterrupt =
    { s with
        sp := s.sp + 1 + 1 + 1,
        p := s.read (stackAddr (s.sp + 1)) ||| bit5,
        pc := concat (s.read (stackAddr (s.sp + 1 + 1 + 1))) (s.read (stackAddr (s.sp + 1 + 1))) } := rfl

@[simp] theorem returnFromInterrupt_a : s.returnFromInterrupt.a = s.a := by rw [returnFromInterrupt_eq]
@[simp] theorem returnFromInterrupt_x : s.returnFromInterrupt.x = s.x := by rw [returnFromInterrupt_eq]
@[simp] theorem returnFromInterrupt_y : s.returnFromInterrupt.y = s.y := by rw [returnFromInterrupt_eq]
@[simp] theorem returnFromInterrupt_sp : s.returnFromInterrupt.sp = s.sp + 1 + 1 + 1 := by rw [returnFromInterrupt_eq]
@[simp] theorem returnFromInterrupt_p : s.returnFromInterrupt.p = s.read (stackAddr (s.sp + 1)) ||| bit5 := by rw [returnFromInterrupt_eq]
@[simp] theorem returnFromInterrupt_pc : s.returnFromInterrupt.pc = concat (s.read (stackAddr (s.sp + 1 + 1 + 1))) (s.read (stackAddr (s.sp + 1 + 1))) := by rw [returnFromInterrupt_eq]
@[simp] theorem returnFromInterrupt_mem : s.returnFromInterrupt.mem = s.mem := by rw [returnFromInterrupt_eq]
@[simp] theorem returnFromInterrupt_nmiLatch : s.returnFromInterrupt.nmiLatch = s.nmiLatch := by rw [returnFromInterrupt_eq]
@[simp] theorem returnFromInterrupt_irqLine : s.returnFromInterrupt.irqLine = s.irqLine := by rw [returnFromInterrupt_eq]
@[simp] theorem returnFromInterrupt_cycles : s.returnFromInterrupt.cycles = s.cycles := by rw [returnFromInterrupt_eq]
@[simp] theorem returnFromInterrupt_stuckCount : s.returnFromInterrupt.stuckCount = s.stuckCount := by rw [returnFromInterrupt_eq]
@[simp] theorem returnFromInterrupt_runState : s.returnFromInterrupt.runState = s.runState := by rw [returnFromInterrupt_eq]
@[simp] theorem returnFromInterrupt_coverage : s.returnFromInterrupt.coverage = s.coverage := by rw [returnFromInterrupt_eq]
@[simp] theorem returnFromInterrupt_vsr : s.returnFromInterrupt.vsr = s.vsr := by rw [returnFromInterrupt_eq]
@[simp] theorem returnFromInterrupt_powered : s.returnFromInterrupt.powered = s.powered := by rw [returnFromInterrupt_eq]
@[simp] theorem returnFromInterrupt_exitReq : s.returnFromInterrupt.exitReq = s.exitReq := by rw [returnFromInterrupt_eq]
@[simp] theorem returnFromInterrupt_vsrCalls : s.returnFromInterrupt.vsrCalls = s.vsrCalls := by rw [returnFromInterrupt_eq]
@[simp] theorem returnFromInterrupt_params : s.returnFromInterrupt.params = s.params := by rw [returnFromInterrupt_eq]

/-! `State.takeInterrupt`: everything but memory, S, P and PC is kept. -/
@[simp] theorem takeInterrupt_a (vec ret : Word) (st : Byte) : (s.takeInterrupt vec ret st).a = s.a := by
  simp only [State.takeInterrupt, loadPc_a, setFlag_a, push_a, pushWord_a]

@[simp] theorem takeInterrupt_x (vec ret : Word) (st : Byte) : (s.takeInterrupt vec ret st).x = s.x := by
  simp only [State.takeInterrupt, loadPc_x, setFlag_x, push_x, pushWord_x]

@[simp] theorem takeInterrupt_y (vec ret : Word) (st : Byte) : (s.takeInterrupt vec ret st).y = s.y := by
  simp only [State.takeInterrupt, loadPc_y, setFlag_y, push_y, pushWord_y]

@[simp] theorem takeInterrupt_nmiLatch (vec ret : Word) (st : Byte) : (s.takeInterrupt vec ret st).nmiLatch = s.nmiLatch := by
  simp only [State.takeInterrupt, loadPc_nmiLatch, setFlag_nmiLatch, push_nmiLatch, pushWord_nmiLatch]

@[simp] theorem takeInterrupt_irqLine (vec ret : Word) (st : Byte) : (s.takeInterrupt vec ret st).irqLine = s.irqLine := by
  simp only [State.takeInterrupt, loadPc_irqLine, setFlag_irqLine, push_irqLine, pushWord_irqLine]

@[simp] theorem takeInterrupt_cycles (vec ret : Word) (st : Byte) : (s.takeInterrupt vec ret st).cycles = s.cycles := by
  simp only [State.takeInterrupt, loadPc_cycles, setFlag_cycles, push_cycles, pushWord_cycles]

@[simp] theorem takeInterrupt_stuckCount (vec ret : Word) (st : Byte) : (s.takeInterrupt vec ret st).stuckCount = s.stuckCount := by
  simp only [State.takeInterrupt, loadPc_stuckCount, setFlag_stuckCount, push_stuckCount, pushWord_stuckCount]

@[simp] theorem takeInterrupt_runState (vec ret : Word) (st : Byte) : (s.takeInterrupt vec ret st).runState = s.runState := by
  simp only [State.takeInterrupt, loadPc_runState, setFlag_runState, push_runState, pushWord_runState]

@[simp] theorem takeInterrupt_coverage (vec ret : Word) (st : Byte) : (s.takeInterrupt vec ret st).coverage = s.coverage := by
  simp only [State.takeInterrupt, loadPc_coverage, setFlag_coverage, push_coverage, pushWord_coverage]

@[simp] theorem takeInterrupt_vsr (vec ret : Word) (st : Byte) : (s.takeInterrupt vec ret st).vsr = s.vsr := by
  simp only [State.takeInterrupt, loadPc_vsr, setFlag_vsr, push_vsr, pushWord_vsr]

@[simp] theorem takeInterrupt_powered (vec ret : Word) (st : Byte) : (s.takeInterrupt vec ret st).powered = s.powered := by
  simp only [State.takeInterrupt, loadPc_powered, setFlag_powered, push_powered, pushWord_powered]

@[simp] theorem takeInterrupt_exitReq (vec ret : Word) (st : Byte) : (s.takeInterrupt vec ret st).exitReq = s.exitReq := by
  simp only [State.takeInterrupt, loadPc_exitReq, setFlag_exitReq, push_exitReq, pushWord_exitReq]

@[simp] theorem takeInterrupt_vsrCalls (vec ret : Word) (st : Byte) : (s.takeInterrupt vec ret st).vsrCalls = s.vsrCalls := by
  simp only [State.takeInterrupt, loadPc_vsrCalls, setFlag_vsrCalls, push_vsrCalls, pushWord_vsrCalls]

@[simp] theorem takeInterrupt_params (vec ret : Word) (st : Byte) : (s.takeInterrupt vec ret st).params = s.params := by
  simp only [State.takeInterrupt, loadPc_params, setFlag_params, push_params, pushWord_params]

@[simp] theorem takeInterrupt_sp (vec ret : Word) (st : Byte) : (s.takeInterrupt vec ret st).sp = s.sp - 1 - 1 - 1 := by
  simp only [State.takeInterrupt, loadPc_sp, setFlag_sp, push_sp, pushWord_sp]

@[simp] theorem takeInterrupt_p (vec ret : Word) (st : Byte) : (s.takeInterrupt vec ret st).p = putFlag .i true s.p := by
  simp only [State.takeInterrupt, loadPc_p, setFlag_p, push_p, pushWord_p]

@[simp] theorem takeInterrupt_mem (vec ret : Word) (st : Byte) :
    (s.takeInterrupt vec ret st).mem = ((s.pushWord ret).push st).mem := by
  simp only [State.takeInterrupt, loadPc_mem, setFlag_mem]

/-- PC comes from the vector as it stands after the pushes. -/
theorem takeInterrupt_pc (vec ret : Word) (st : Byte) :
    (s.takeInterrupt vec ret st).pc = ((s.pushWord ret).push st).read16 vec := by
  simp only [State.takeInterrupt, loadPc_pc, State.read16, State.read, setFlag_mem]

/-! Reads through an update that keeps memory. -/
@[simp] theorem read_setA (v : Byte) (addr : Word) : (s.setA v).read addr = s.read addr := rfl
@[simp] theorem read_setX (v : Byte) (addr : Word) : (s.setX v).read addr = s.read addr := rfl
@[simp] theorem read_setY (v : Byte) (addr : Word) : (s.setY v).read addr = s.read addr := rfl
@[simp] theorem read_setS (v : Byte) (addr : Word) : (s.setS v).read addr = s.read addr := rfl
@[simp] theorem read_setPc (w : Word) (addr : Word) : (s.setPc w).read addr = s.read addr := rfl
@[simp] theorem read_setP (v : Byte) (addr : Word) : (s.setP v).read addr = s.read addr := rfl
@[simp] theorem read_updateP (g : Byte → Byte) (addr : Word) : (s.updateP g).read addr = s.read addr := rfl
@[simp] theorem read_setFlag (f : Flag) (on : Bool) (addr : Word) : (s.setFlag f on).read addr = s.read addr := rfl
@[simp] theorem read_setNZ (v : Byte) (addr : Word) : (s.setNZ v).read addr = s.read addr := rfl
@[simp] theorem read_putAlu (r : AluResult) (addr : Word) : (s.putAlu r).read addr = s.read addr := rfl
@[simp] theorem read_loadPc (vec : Word) (addr : Word) : (s.loadPc vec).read addr = s.read addr := rfl
@[simp] theorem read_addCycles (n : Nat) (addr : Word) : (s.addCycles n).read addr = s.read addr := rfl
@[simp] theorem read_book (op : Byte) (extra : Nat) (addr : Word) : (s.book op extra).read addr = s.read addr := rfl

@[simp] theorem flag_eq (f : Flag) : s.flag f = getFlag f s.p := rfl
@[simp] theorem pull_fst : s.pull.1 = s.read (stackAddr (s.sp + 1)) := rfl
@[simp] theorem pull_snd : s.pull.2 = s.setS (s.sp + 1) := rfl

end

end Sys2Proof.Machine
end

