-- ==== Sys2Proof/Laws/Ops.lean ====
section
/-! SUPPORT. For each shared operation, once, everything it can do when it answers a next state; and the lemmas that a
proof about a meaning cites. -/

namespace Sys2Proof.Machine

/-! ### Advance and booking -/

section
variable (i : Instr) (op : Byte) (extra : Nat) (e : State → State) (s : State)
@[simp] theorem advanceAfter_a : (advanceAfter i op extra e s).a = (e s).a := rfl
@[simp] theorem advanceAfter_x : (advanceAfter i op extra e s).x = (e s).x := rfl
@[simp] theorem advanceAfter_y : (advanceAfter i op extra e s).y = (e s).y := rfl
@[simp] theorem advanceAfter_sp : (advanceAfter i op extra e s).sp = (e s).sp := rfl
@[simp] theorem advanceAfter_p : (advanceAfter i op extra e s).p = (e s).p := rfl
@[simp] theorem advanceAfter_mem : (advanceAfter i op extra e s).mem = (e s).mem := rfl
@[simp] theorem advanceAfter_nmiLatch : (advanceAfter i op extra e s).nmiLatch = (e s).nmiLatch := rfl
@[simp] theorem advanceAfter_irqLine : (advanceAfter i op extra e s).irqLine = (e s).irqLine := rfl
@[simp] theorem advanceAfter_stuckCount : (advanceAfter i op extra e s).stuckCount = (e s).stuckCount := rfl
@[simp] theorem advanceAfter_runState : (advanceAfter i op extra e s).runState = (e s).runState := rfl
@[simp] theorem advanceAfter_vsr : (advanceAfter i op extra e s).vsr = (e s).vsr := rfl
@[simp] theorem advanceAfter_powered : (advanceAfter i op extra e s).powered = (e s).powered := rfl
@[simp] theorem advanceAfter_exitReq : (advanceAfter i op extra e s).exitReq = (e s).exitReq := rfl
@[simp] theorem advanceAfter_vsrCalls : (advanceAfter i op extra e s).vsrCalls = (e s).vsrCalls := rfl
@[simp] theorem advanceAfter_params : (advanceAfter i op extra e s).params = (e s).params := rfl
@[simp] theorem advanceAfter_pc : (advanceAfter i op extra e s).pc = s.pc + BitVec.ofNat 16 i.length := rfl
@[simp] theorem advanceAfter_cycles :
    (advanceAfter i op extra e s).cycles = (e s).cycles + (((e s).params.cycleRow op).base + extra) := rfl
@[simp] theorem advanceAfter_coverage : (advanceAfter i op extra e s).coverage = mark op (e s).coverage := rfl

end

/-! ### What the shared operations answer -/

/-- An instruction's rule runs exactly with its opcode. -/
theorem withOpcode_next {i : Instr} {f : Byte → Result} {t : State} :
    withOpcode i f = .next t ↔ ∃ op, i.opcode = some op ∧ f op = .next t := by
  unfold withOpcode
  cases i.opcode <;> simp

theorem withOpcode_some {i : Instr} {f : Byte → Result} {op : Byte} (h : i.opcode = some op) : withOpcode i f = f op := by
  simp [withOpcode, h]

theorem execImplied_next {i : Instr} {e : State → State} {s t : State} :
    execImplied i e s = .next t ↔ ∃ op, i.opcode = some op ∧ t = advanceAfter i op 0 e s := by
  unfold execImplied
  rw [withOpcode_next]
  simp [eq_comm]

theorem execRead_next {i : Instr} {o : Operand} {e : Byte → State → State} {s t : State} :
    execRead i o e s = .next t ↔ ∃ op v, i.opcode = some op ∧ s.operandValue o = some v ∧
      t = advanceAfter i op (s.params.pageExtra op (s.resolve o).crossed) (e v) s := by
  unfold execRead
  rw [withOpcode_next]
  cases s.operandValue o <;> simp [eq_comm]

theorem execStore_next {i : Instr} {o : Operand} {v : Byte} {s t : State} :
    execStore i o v s = .next t ↔ ∃ op s', i.opcode = some op ∧ s.storeOperand o v = some s' ∧
      t = advanceAfter i op (s.params.pageExtra op (s.resolve o).crossed) (fun _ => s') s := by
  unfold execStore
  rw [withOpcode_next]
  cases s.storeOperand o v <;> simp [eq_comm]

theorem execRmw_next {i : Instr} {o : Operand} {f : Rmw} {s t : State} :
    execRmw i o f s = .next t ↔ ∃ op v s', i.opcode = some op ∧ s.operandValue o = some v ∧
      s.storeOperand o (f v s.p).1 = some s' ∧
      t = advanceAfter i op (s.params.pageExtra op (s.resolve o).crossed) (fun _ => s'.updateP fun _ => (f v s.p).2) s := by
  unfold execRmw
  rw [withOpcode_next]
  cases hv : s.operandValue o with
  | none => simp
  | some v => cases hs : s.storeOperand o (f v s.p).1 <;> simp [hs, eq_comm]

theorem execBranch_next {i : Instr} {cond : Bool} {rel8 : Byte} {s t : State} :
    execBranch i cond rel8 s = .next t ↔ ∃ op, i.opcode = some op ∧
      t = if cond then (s.setPc (relativeTarget s.pc rel8)).book op
            (1 + if pageCross (s.pc + 2) (relativeTarget s.pc rel8) then 1 else 0)
          else (s.setPc (s.pc + 2)).book op 0 := by
  unfold execBranch
  rw [withOpcode_next]
  cases cond <;> exact exists_congr fun op => and_congr_right fun _ => ⟨fun h => (Host.Outcome.next.inj h).symm, fun h => h ▸ rfl⟩

/-- `StoreOperand` of a mode that is not Accumulator. -/
theorem storeOperand_of_ne {o : Operand} (h : o ≠ .accumulator) (v : Byte) (s : State) :
    s.storeOperand o v = (s.dataAddress o).map fun ea => s.write ea v := by
  cases o <;> first | rfl | exact absurd rfl h

/-- `StoreOperand` writes A, or one byte of memory at the data address. -/
theorem storeOperand_some {o : Operand} {v : Byte} {s s' : State} (h : s.storeOperand o v = some s') :
    (o = .accumulator ∧ s' = s.setA v) ∨
      ∃ ea, o ≠ .accumulator ∧ s.dataAddress o = some ea ∧ s' = s.write ea v := by
  by_cases ho : o = .accumulator
  · subst ho; exact .inl ⟨rfl, (Option.some.inj h).symm⟩
  · rw [storeOperand_of_ne ho, Option.map_eq_some_iff] at h
    obtain ⟨ea, hea, hs⟩ := h
    exact .inr ⟨ea, ho, hea, hs.symm⟩

/-! ### The VSR hook -/

/-- One act of a callback changes A, X, Y, S, P, PC, memory and the exit request, and nothing else. -/
theorem vsrAct_next {act : VsrAct} {s t : State} (h : vsrAct act s = .next t) :
    t = { s with a := t.a, x := t.x, y := t.y, sp := t.sp, p := t.p, pc := t.pc, mem := t.mem, exitReq := t.exitReq } := by
  cases act with
  | setReg r v => cases r <;> (simp only [vsrAct, Host.Outcome.next.injEq] at h; subst h; rfl)
  | touchEngine part => simp [vsrAct] at h
  | _ => simp only [vsrAct, Host.Outcome.next.injEq] at h; subst h; rfl

/-- A callback's act keeps the canonical form of memory and bit 5 of P. -/
theorem vsrAct_keeps {act : VsrAct} {s t : State} (h : vsrAct act s = .next t) (hm : s.mem.wf = true)
    (hp : s.p.getLsbD 5 = true) : t.mem.wf = true ∧ t.p.getLsbD 5 = true := by
  cases act with
  | setReg r v =>
    cases r <;> (simp only [vsrAct, Host.Outcome.next.injEq] at h; subst h; simp [State.vsrSetReg, hm, hp, bit5])
  | setPc w => simp only [vsrAct, Host.Outcome.next.injEq] at h; subst h; exact ⟨hm, hp⟩
  | poke addr v => simp only [vsrAct, Host.Outcome.next.injEq] at h; subst h; exact ⟨write_wf _ _ _ hm, hp⟩
  | requestExit => simp only [vsrAct, Host.Outcome.next.injEq] at h; subst h; exact ⟨hm, hp⟩
  | touchEngine part => simp [vsrAct] at h

/-- A jump without a registered target. -/
theorem bookAfterVsr_none {op : Byte} {target : Word} {isJsr : Bool} {s : State} (h : s.vsr.lookup target = none) :
    bookAfterVsr op target isJsr s = .next (s.book op 0) := by
  simp [bookAfterVsr, vsrCheck, h]

/-- A jump to a registered target whose callback goes on. -/
theorem bookAfterVsr_some {op : Byte} {target : Word} {isJsr : Bool} {s u : State} {cb : Callback}
    (h : s.vsr.lookup target = some cb) (hu : invokeCallback cb s = .next u) :
    bookAfterVsr op target isJsr s = .next ((if isJsr then u.returnFromSubroutine else u).book op 0) := by
  simp [bookAfterVsr, vsrCheck, h, hu]

/-! ### The end of a step -/

@[simp] theorem endStep_a (w : Word) (s : State) : (s.endStep w).a = s.a := by
  unfold State.endStep; split <;> rfl

@[simp] theorem endStep_x (w : Word) (s : State) : (s.endStep w).x = s.x := by
  unfold State.endStep; split <;> rfl

@[simp] theorem endStep_y (w : Word) (s : State) : (s.endStep w).y = s.y := by
  unfold State.endStep; split <;> rfl

@[simp] theorem endStep_sp (w : Word) (s : State) : (s.endStep w).sp = s.sp := by
  unfold State.endStep; split <;> rfl

@[simp] theorem endStep_p (w : Word) (s : State) : (s.endStep w).p = s.p := by
  unfold State.endStep; split <;> rfl

@[simp] theorem endStep_pc (w : Word) (s : State) : (s.endStep w).pc = s.pc := by
  unfold State.endStep; split <;> rfl

@[simp] theorem endStep_mem (w : Word) (s : State) : (s.endStep w).mem = s.mem := by
  unfold State.endStep; split <;> rfl

@[simp] theorem endStep_nmiLatch (w : Word) (s : State) : (s.endStep w).nmiLatch = s.nmiLatch := by
  unfold State.endStep; split <;> rfl

@[simp] theorem endStep_irqLine (w : Word) (s : State) : (s.endStep w).irqLine = s.irqLine := by
  unfold State.endStep; split <;> rfl

@[simp] theorem endStep_cycles (w : Word) (s : State) : (s.endStep w).cycles = s.cycles := by
  unfold State.endStep; split <;> rfl

@[simp] theorem endStep_coverage (w : Word) (s : State) : (s.endStep w).coverage = s.coverage := by
  unfold State.endStep; split <;> rfl

@[simp] theorem endStep_vsr (w : Word) (s : State) : (s.endStep w).vsr = s.vsr := by
  unfold State.endStep; split <;> rfl

@[simp] theorem endStep_powered (w : Word) (s : State) : (s.endStep w).powered = s.powered := by
  unfold State.endStep; split <;> rfl

@[simp] theorem endStep_vsrCalls (w : Word) (s : State) : (s.endStep w).vsrCalls = s.vsrCalls := by
  unfold State.endStep; split <;> rfl

@[simp] theorem endStep_params (w : Word) (s : State) : (s.endStep w).params = s.params := by
  unfold State.endStep; split <;> rfl

/-- The end of a step that did not end in IllegalOpcode (R162). -/
theorem endStep_running {s : State} (w : Word) (h : s.runState = .running) :
    s.endStep w = { s with stuckCount := s.nextStuckCount w, runState := s.endStatus w, exitReq := false } := by
  unfold State.endStep
  rw [h]

/-- A terminal run state ends the step as it is. -/
theorem endStep_terminal {s : State} (w : Word) (h : s.runState ≠ .running) : s.endStep w = s := by
  unfold State.endStep
  split
  · contradiction
  · rfl

/-- `finish` answers a next state exactly when the instruction does. -/
theorem finish_next {w : Word} {r : Result} {t : State} :
    finish w r = .next t ↔ ∃ u, r = .next u ∧ t = u.endStep w := by
  cases r <;> simp [finish, eq_comm]

/-! ### The four ways of a step (R162) -/

@[simp] theorem clearExit_takesNmi (s : State) : s.clearExit.takesNmi = s.takesNmi := rfl
@[simp] theorem clearExit_takesIrq (s : State) : s.clearExit.takesIrq = s.takesIrq := rfl
@[simp] theorem clearExit_fetch (s : State) : s.clearExit.fetch = s.fetch := rfl
@[simp] theorem clearExit_read (s : State) (addr : Word) : s.clearExit.read addr = s.read addr := rfl

/-- A step in a terminal run state changes nothing (R178). -/
theorem step_of_terminal {s : State} (hp : s.powered = true) (hr : s.runState ≠ .running) : step s = .next s := by
  unfold step
  rw [if_pos hp]
  split
  · contradiction
  · rfl

/-- A step of a running CPU. -/
theorem step_of_running {s : State} (hp : s.powered = true) (hr : s.runState = .running) :
    step s = stepRunning s.clearExit := by
  unfold step
  rw [if_pos hp, hr]

/-- A step that services an NMI (R205). -/
theorem step_of_nmi {s : State} (hp : s.powered = true) (hr : s.runState = .running) (hn : s.takesNmi = true) :
    step s = .next (s.clearExit.serviceNmi.endStep s.pc) := by
  rw [step_of_running hp hr, stepRunning, if_pos (by simpa using hn)]
  rfl

/-- A step that services an IRQ (R206). -/
theorem step_of_irq {s : State} (hp : s.powered = true) (hr : s.runState = .running) (hi : s.takesIrq = true) :
    step s = .next (s.clearExit.serviceIrq.endStep s.pc) := by
  have hn : s.takesNmi = false := by
    simp only [State.takesIrq, Bool.and_eq_true, Bool.not_eq_true'] at hi
    exact hi.1.1
  rw [step_of_running hp hr, stepRunning, if_neg (by simp [hn]), if_pos (by simpa using hi)]
  rfl

/-- A step that runs an instruction (R165 to R167). -/
theorem step_of_instr {s : State} (hp : s.powered = true) (hr : s.runState = .running) (hn : s.takesNmi = false)
    (hi : s.takesIrq = false) : step s = finish s.pc (exec s.fetch s.clearExit) := by
  rw [step_of_running hp hr, stepRunning, if_neg (by simp [hn]), if_neg (by simp [hi])]
  rfl

/-- What a step that goes on has done. -/
theorem step_next {s t : State} (h : step s = .next t) :
    s.powered = true ∧
      ((s.runState ≠ .running ∧ t = s) ∨
       (s.runState = .running ∧ s.takesNmi = true ∧ t = s.clearExit.serviceNmi.endStep s.pc) ∨
       (s.runState = .running ∧ s.takesIrq = true ∧ t = s.clearExit.serviceIrq.endStep s.pc) ∨
       (s.runState = .running ∧ s.takesNmi = false ∧ s.takesIrq = false ∧
         ∃ u, exec s.fetch s.clearExit = .next u ∧ t = u.endStep s.pc)) := by
  by_cases hp : s.powered = true
  · refine ⟨hp, ?_⟩
    by_cases hr : s.runState = .running
    · right
      by_cases hn : s.takesNmi = true
      · rw [step_of_nmi hp hr hn] at h
        exact .inl ⟨hr, hn, (Host.Outcome.next.inj h).symm⟩
      · by_cases hi : s.takesIrq = true
        · rw [step_of_irq hp hr hi] at h
          exact .inr (.inl ⟨hr, hi, (Host.Outcome.next.inj h).symm⟩)
        · rw [step_of_instr hp hr (by simpa using hn) (by simpa using hi), finish_next] at h
          exact .inr (.inr ⟨hr, by simpa using hn, by simpa using hi, h⟩)
    · rw [step_of_terminal hp hr] at h
      exact .inl ⟨hr, (Host.Outcome.next.inj h).symm⟩
  · unfold step at h
    rw [if_neg hp] at h
    cases h

end Sys2Proof.Machine
end

