-- ==== Sys2Proof/Laws/Exec.lean ====
section
/-! SUPPORT. What executing any instruction leaves behind (`exec_next`), said once, callbacks included: proofs about every
instruction cite it instead of unfolding the meanings. -/

namespace Sys2Proof.Machine

/-- What no instruction's effect writes. -/
structure Untouched (s t : State) : Prop where
  nmiLatch : t.nmiLatch = s.nmiLatch
  irqLine : t.irqLine = s.irqLine
  stuckCount : t.stuckCount = s.stuckCount
  vsr : t.vsr = s.vsr
  powered : t.powered = s.powered
  params : t.params = s.params
  mem : s.mem.wf = true → t.mem.wf = true
  bit5 : s.p.getLsbD 5 = true → t.p.getLsbD 5 = true

theorem Untouched.refl (s : State) : Untouched s s := ⟨rfl, rfl, rfl, rfl, rfl, rfl, id, id⟩
theorem Untouched.trans {s t u : State} (h : Untouched s t) (k : Untouched t u) : Untouched s u :=
  ⟨k.1.trans h.1, k.2.trans h.2, k.3.trans h.3, k.4.trans h.4, k.5.trans h.5, k.6.trans h.6, k.7 ∘ h.7, k.8 ∘ h.8⟩

theorem putFlag_bit5 (f : Flag) (on : Bool) (p : Byte) : (putFlag f on p).getLsbD 5 = p.getLsbD 5 := by
  revert on p; cases f <;> decide
theorem setP_bit5 (v : Byte) : (v ||| bit5).getLsbD 5 = true := by
  simp [bit5]

theorem vsrActs_next {l : List VsrAct} {s t : State} (h : vsrActs l s = .next t) :
    Untouched s t ∧ t.cycles = s.cycles ∧ t.coverage = s.coverage ∧ t.runState = s.runState ∧ t.vsrCalls = s.vsrCalls := by
  induction l generalizing s with
  | nil => simp only [vsrActs, Host.Outcome.next.injEq] at h; subst h; exact ⟨.refl s, rfl, rfl, rfl, rfl⟩
  | cons act rest ih =>
    simp only [vsrActs] at h
    cases hv : vsrAct act s with
    | next s' =>
      rw [hv] at h
      obtain ⟨h1, h2, h3, h4, h5⟩ := ih h
      have e := vsrAct_next hv
      have k : Untouched s s' := by
        rw [e]
        refine ⟨rfl, rfl, rfl, rfl, rfl, rfl, ?_, ?_⟩
        · intro hm
          cases act with
          | setReg r v => cases r <;> (simp only [vsrAct, Host.Outcome.next.injEq] at hv; subst hv; exact hm)
          | poke a v => simp only [vsrAct, Host.Outcome.next.injEq] at hv; subst hv; exact write_wf _ _ _ hm
          | touchEngine p => cases hv
          | _ => simp only [vsrAct, Host.Outcome.next.injEq] at hv; subst hv; exact hm
        · intro hp
          cases act with
          | setReg r v =>
            cases r <;> (simp only [vsrAct, Host.Outcome.next.injEq] at hv; subst hv; first | exact hp | exact setP_bit5 _)
          | touchEngine p => cases hv
          | _ => simp only [vsrAct, Host.Outcome.next.injEq] at hv; subst hv; exact hp
      have e' : s'.cycles = s.cycles ∧ s'.coverage = s.coverage ∧ s'.runState = s.runState ∧ s'.vsrCalls = s.vsrCalls := by
        rw [e]; exact ⟨rfl, rfl, rfl, rfl⟩
      exact ⟨k.trans h1, h2.trans e'.1, h3.trans e'.2.1, h4.trans e'.2.2.1, h5.trans e'.2.2.2⟩
    | fault r => rw [hv] at h; cases h
    | refused r => rw [hv] at h; cases h


theorem Untouched.of {s t : State} (h : t = { s with a := t.a, x := t.x, y := t.y, sp := t.sp, p := t.p, pc := t.pc, mem := t.mem, cycles := t.cycles, coverage := t.coverage })
    (hm : s.mem.wf = true → t.mem.wf = true) (hp : s.p.getLsbD 5 = true → t.p.getLsbD 5 = true) : Untouched s t := by
  constructor
  · rw [h]
  · rw [h]
  · rw [h]
  · rw [h]
  · rw [h]
  · rw [h]
  · exact hm
  · exact hp

/-- What an executed legal instruction leaves behind besides its own effect. -/
structure Booked (op : Byte) (s t : State) : Prop where
  untouched : Untouched s t
  runState : t.runState = s.runState
  coverage : t.coverage = mark op s.coverage
  cycles : ∃ n, t.cycles = s.cycles + ((s.params.cycleRow op).base + n)

theorem booked_advance (i : Instr) (op : Byte) (extra : Nat) (e : State → State) (s : State)
    (h : Untouched s (e s)) (hr : (e s).runState = s.runState) (hc : (e s).coverage = s.coverage) (hy : (e s).cycles = s.cycles) :
    Booked op s (advanceAfter i op extra e s) :=
  ⟨⟨h.1, h.2, h.3, h.4, h.5, h.6, h.7, h.8⟩, hr, by simp [hc], extra, by simp [hy, h.params]⟩

theorem booked_book (op : Byte) (extra : Nat) {s t : State}
    (h : Untouched s t) (hr : t.runState = s.runState) (hc : t.coverage = s.coverage) (hy : t.cycles = s.cycles) :
    Booked op s (t.book op extra) :=
  ⟨⟨h.1, h.2, h.3, h.4, h.5, h.6, h.7, h.8⟩, hr, by simp [State.book, hc], extra, by simp [State.book, State.addCycles, hy, h.params]⟩

theorem putNZ_bit5 (v p : Byte) : (putNZ v p).getLsbD 5 = p.getLsbD 5 := by
  rw [putNZ, putFlag_bit5, putFlag_bit5]

theorem updateP_untouched (g : Byte → Byte) (s : State) (h : (g s.p).getLsbD 5 = s.p.getLsbD 5) : Untouched s (s.updateP g) :=
  ⟨rfl, rfl, rfl, rfl, rfl, rfl, id, fun hp => h.trans hp⟩

theorem implied_booked {i : Instr} {e : State → State} {s t : State} (h : execImplied i e s = .next t)
    (hu : Untouched s (e s)) (hr : (e s).runState = s.runState) (hc : (e s).coverage = s.coverage) (hy : (e s).cycles = s.cycles) :
    ∃ op, i.opcode = some op ∧ Booked op s t := by
  obtain ⟨op, ho, rfl⟩ := execImplied_next.mp h
  exact ⟨op, ho, booked_advance _ _ _ _ _ hu hr hc hy⟩

theorem read_booked {i : Instr} {o : Operand} {e : Byte → State → State} {s t : State} (h : execRead i o e s = .next t)
    (hu : ∀ v, Untouched s (e v s)) (hr : ∀ v, (e v s).runState = s.runState) (hc : ∀ v, (e v s).coverage = s.coverage) (hy : ∀ v, (e v s).cycles = s.cycles) :
    ∃ op, i.opcode = some op ∧ Booked op s t := by
  obtain ⟨op, v, ho, -, rfl⟩ := execRead_next.mp h
  exact ⟨op, ho, booked_advance _ _ _ _ _ (hu v) (hr v) (hc v) (hy v)⟩

theorem storeOperand_untouched {o : Operand} {v : Byte} {s s' : State} (h : s.storeOperand o v = some s') :
    Untouched s s' ∧ s'.runState = s.runState ∧ s'.coverage = s.coverage ∧ s'.cycles = s.cycles := by
  rcases storeOperand_some h with ⟨-, rfl⟩ | ⟨ea, -, -, rfl⟩
  · exact ⟨⟨rfl, rfl, rfl, rfl, rfl, rfl, id, id⟩, rfl, rfl, rfl⟩
  · exact ⟨⟨rfl, rfl, rfl, rfl, rfl, rfl, write_wf _ _ _, id⟩, rfl, rfl, rfl⟩

theorem store_booked {i : Instr} {o : Operand} {v : Byte} {s t : State} (h : execStore i o v s = .next t) :
    ∃ op, i.opcode = some op ∧ Booked op s t := by
  obtain ⟨op, s', ho, hs, rfl⟩ := execStore_next.mp h
  obtain ⟨h1, h2, h3, h4⟩ := storeOperand_untouched hs
  exact ⟨op, ho, booked_advance _ _ _ _ _ h1 h2 h3 h4⟩

theorem rmw_booked {i : Instr} {o : Operand} {f : Rmw} {s t : State} (h : execRmw i o f s = .next t)
    (hf : ∀ v p, ((f v p).2).getLsbD 5 = p.getLsbD 5) :
    ∃ op, i.opcode = some op ∧ Booked op s t := by
  obtain ⟨op, v, s', ho, -, hs, rfl⟩ := execRmw_next.mp h
  obtain ⟨h1, h2, h3, h4⟩ := storeOperand_untouched hs
  refine ⟨op, ho, booked_advance _ _ _ _ _ ?_ h2 h3 h4⟩
  exact ⟨h1.1, h1.2, h1.3, h1.4, h1.5, h1.6, h1.7, fun hp => (hf v s.p).trans hp⟩

theorem branch_booked {i : Instr} {c : Bool} {b : Byte} {s t : State} (h : execBranch i c b s = .next t) :
    ∃ op, i.opcode = some op ∧ Booked op s t := by
  obtain ⟨op, ho, rfl⟩ := execBranch_next.mp h
  refine ⟨op, ho, ?_⟩
  split
  · exact booked_book op _ (s := s) (t := s.setPc _) ⟨rfl, rfl, rfl, rfl, rfl, rfl, id, id⟩ rfl rfl rfl
  · exact booked_book op _ (s := s) (t := s.setPc _) ⟨rfl, rfl, rfl, rfl, rfl, rfl, id, id⟩ rfl rfl rfl

theorem vsr_booked {op : Byte} {w : Word} {j : Bool} {s s' t : State} (h : bookAfterVsr op w j s' = .next t)
    (hu : Untouched s s') (hr : s'.runState = s.runState) (hc : s'.coverage = s.coverage) (hy : s'.cycles = s.cycles) : Booked op s t := by
  cases hl : s'.vsr.lookup w with
  | none => rw [bookAfterVsr_none hl] at h; cases h; exact booked_book op 0 hu hr hc hy
  | some cb =>
    cases hi : invokeCallback cb s' with
    | next u =>
      rw [bookAfterVsr_some hl hi] at h
      obtain ⟨k, k2, k3, k4, -⟩ := vsrActs_next hi
      have k' : Untouched s' u := ⟨k.1, k.2, k.3, k.4, k.5, k.6, k.7, k.8⟩
      cases h
      cases j
      · exact booked_book op 0 (hu.trans k') (k4.trans hr) (k3.trans hc) (k2.trans hy)
      · exact booked_book op 0 (t := u.returnFromSubroutine) (hu.trans (k'.trans ⟨rfl, rfl, rfl, rfl, rfl, rfl, id, id⟩)) (k4.trans hr) (k3.trans hc) (k2.trans hy)
    | fault r => rw [bookAfterVsr, vsrCheck, hl] at h; simp only [hi] at h; cases h
    | refused r => rw [bookAfterVsr, vsrCheck, hl] at h; simp only [hi] at h; cases h

theorem takeInterrupt_untouched (s : State) (vec ret : Word) (st : Byte) : Untouched s (s.takeInterrupt vec ret st) :=
  ⟨by simp, by simp, by simp, by simp, by simp, by simp, takeInterrupt_wf s vec ret st,
   fun hp => by rw [takeInterrupt_p, putFlag_bit5, hp]⟩

/-- What executing an instruction leaves behind, callbacks included. -/
theorem exec_next {i : Instr} {s t : State} (h : exec i s = .next t) :
    ∃ op, i.opcode = some op ∧
      ((i.mnemonic ≠ .illegal ∧ Booked op s t) ∨
       (i = .illegal op ∧ t = { s with pc := s.pc + 1, runState := .illegalOpcode s.pc op })) := by
  have wrap : i.mnemonic ≠ .illegal → (∃ op, i.opcode = some op ∧ Booked op s t) → ∃ op, i.opcode = some op ∧
      ((i.mnemonic ≠ .illegal ∧ Booked op s t) ∨
       (i = .illegal op ∧ t = { s with pc := s.pc + 1, runState := .illegalOpcode s.pc op })) :=
    fun h1 ⟨op, h2, h3⟩ => ⟨op, h2, .inl ⟨h1, h3⟩⟩
  have alu (r : AluResult) (s : State) : Untouched s (s.putAlu r) :=
    ⟨rfl, rfl, rfl, rfl, rfl, rfl, id, fun hp => by
      show (r.putFlags s.p).getLsbD 5 = true
      simp [AluResult.putFlags, putFlag_bit5, hp]⟩
  cases i with
  | adc o => rw [exec_adc, execAdc] at h; exact wrap (by simp [Instr.mnemonic]) (read_booked h (fun v => alu _ _) (fun _ => rfl) (fun _ => rfl) (fun _ => rfl))
  | sbc o => rw [exec_sbc, execSbc] at h; exact wrap (by simp [Instr.mnemonic]) (read_booked h (fun v => alu _ _) (fun _ => rfl) (fun _ => rfl) (fun _ => rfl))
  | and o => rw [exec_and, execAnd] at h; exact wrap (by simp [Instr.mnemonic]) (read_booked h (fun v => ⟨rfl, rfl, rfl, rfl, rfl, rfl, id, fun hp => (putNZ_bit5 _ _).trans hp⟩) (fun _ => rfl) (fun _ => rfl) (fun _ => rfl))
  | ora o => rw [exec_ora, execOra] at h; exact wrap (by simp [Instr.mnemonic]) (read_booked h (fun v => ⟨rfl, rfl, rfl, rfl, rfl, rfl, id, fun hp => (putNZ_bit5 _ _).trans hp⟩) (fun _ => rfl) (fun _ => rfl) (fun _ => rfl))
  | eor o => rw [exec_eor, execEor] at h; exact wrap (by simp [Instr.mnemonic]) (read_booked h (fun v => ⟨rfl, rfl, rfl, rfl, rfl, rfl, id, fun hp => (putNZ_bit5 _ _).trans hp⟩) (fun _ => rfl) (fun _ => rfl) (fun _ => rfl))
  | lda o => rw [exec_lda, execLda] at h; exact wrap (by simp [Instr.mnemonic]) (read_booked h (fun v => ⟨rfl, rfl, rfl, rfl, rfl, rfl, id, fun hp => (putNZ_bit5 _ _).trans hp⟩) (fun _ => rfl) (fun _ => rfl) (fun _ => rfl))
  | ldx o => rw [exec_ldx, execLdx] at h; exact wrap (by simp [Instr.mnemonic]) (read_booked h (fun v => ⟨rfl, rfl, rfl, rfl, rfl, rfl, id, fun hp => (putNZ_bit5 _ _).trans hp⟩) (fun _ => rfl) (fun _ => rfl) (fun _ => rfl))
  | ldy o => rw [exec_ldy, execLdy] at h; exact wrap (by simp [Instr.mnemonic]) (read_booked h (fun v => ⟨rfl, rfl, rfl, rfl, rfl, rfl, id, fun hp => (putNZ_bit5 _ _).trans hp⟩) (fun _ => rfl) (fun _ => rfl) (fun _ => rfl))
  | cmp o => rw [exec_cmp, execCmp] at h; exact wrap (by simp [Instr.mnemonic]) (read_booked h (fun v => updateP_untouched _ _ (by rw [putCompare, putNZ_bit5, putFlag_bit5])) (fun _ => rfl) (fun _ => rfl) (fun _ => rfl))
  | cpx o => rw [exec_cpx, execCpx] at h; exact wrap (by simp [Instr.mnemonic]) (read_booked h (fun v => updateP_untouched _ _ (by rw [putCompare, putNZ_bit5, putFlag_bit5])) (fun _ => rfl) (fun _ => rfl) (fun _ => rfl))
  | cpy o => rw [exec_cpy, execCpy] at h; exact wrap (by simp [Instr.mnemonic]) (read_booked h (fun v => updateP_untouched _ _ (by rw [putCompare, putNZ_bit5, putFlag_bit5])) (fun _ => rfl) (fun _ => rfl) (fun _ => rfl))
  | bit o => rw [exec_bit, execBit] at h; exact wrap (by simp [Instr.mnemonic]) (read_booked h (fun v => updateP_untouched _ _ (by rw [putBitTest, putFlag_bit5, putFlag_bit5, putFlag_bit5])) (fun _ => rfl) (fun _ => rfl) (fun _ => rfl))
  | sta o => rw [exec_sta, execSta] at h; exact wrap (by simp [Instr.mnemonic]) (store_booked h)
  | stx o => rw [exec_stx, execStx] at h; exact wrap (by simp [Instr.mnemonic]) (store_booked h)
  | sty o => rw [exec_sty, execSty] at h; exact wrap (by simp [Instr.mnemonic]) (store_booked h)
  | asl o => rw [exec_asl, execAsl] at h; exact wrap (by simp [Instr.mnemonic]) (rmw_booked h fun v p => (putNZ_bit5 _ _).trans (putFlag_bit5 _ _ _))
  | lsr o => rw [exec_lsr, execLsr] at h; exact wrap (by simp [Instr.mnemonic]) (rmw_booked h fun v p => (putNZ_bit5 _ _).trans (putFlag_bit5 _ _ _))
  | rol o => rw [exec_rol, execRol] at h; exact wrap (by simp [Instr.mnemonic]) (rmw_booked h fun v p => (putNZ_bit5 _ _).trans (putFlag_bit5 _ _ _))
  | ror o => rw [exec_ror, execRor] at h; exact wrap (by simp [Instr.mnemonic]) (rmw_booked h fun v p => (putNZ_bit5 _ _).trans (putFlag_bit5 _ _ _))
  | inc o => rw [exec_inc, execInc] at h; exact wrap (by simp [Instr.mnemonic]) (rmw_booked h fun v p => putNZ_bit5 _ _)
  | dec o => rw [exec_dec, execDec] at h; exact wrap (by simp [Instr.mnemonic]) (rmw_booked h fun v p => putNZ_bit5 _ _)
  | bcc b => rw [exec_bcc, execBcc] at h; exact wrap (by simp [Instr.mnemonic]) (branch_booked h)
  | bcs b => rw [exec_bcs, execBcs] at h; exact wrap (by simp [Instr.mnemonic]) (branch_booked h)
  | beq b => rw [exec_beq, execBeq] at h; exact wrap (by simp [Instr.mnemonic]) (branch_booked h)
  | bmi b => rw [exec_bmi, execBmi] at h; exact wrap (by simp [Instr.mnemonic]) (branch_booked h)
  | bne b => rw [exec_bne, execBne] at h; exact wrap (by simp [Instr.mnemonic]) (branch_booked h)
  | bpl b => rw [exec_bpl, execBpl] at h; exact wrap (by simp [Instr.mnemonic]) (branch_booked h)
  | bvc b => rw [exec_bvc, execBvc] at h; exact wrap (by simp [Instr.mnemonic]) (branch_booked h)
  | bvs b => rw [exec_bvs, execBvs] at h; exact wrap (by simp [Instr.mnemonic]) (branch_booked h)
  | tax => rw [exec_tax, execTax] at h; exact wrap (by simp [Instr.mnemonic]) (implied_booked h ⟨rfl, rfl, rfl, rfl, rfl, rfl, id, fun hp => (putNZ_bit5 _ _).trans hp⟩ rfl rfl rfl)
  | tay => rw [exec_tay, execTay] at h; exact wrap (by simp [Instr.mnemonic]) (implied_booked h ⟨rfl, rfl, rfl, rfl, rfl, rfl, id, fun hp => (putNZ_bit5 _ _).trans hp⟩ rfl rfl rfl)
  | txa => rw [exec_txa, execTxa] at h; exact wrap (by simp [Instr.mnemonic]) (implied_booked h ⟨rfl, rfl, rfl, rfl, rfl, rfl, id, fun hp => (putNZ_bit5 _ _).trans hp⟩ rfl rfl rfl)
  | tya => rw [exec_tya, execTya] at h; exact wrap (by simp [Instr.mnemonic]) (implied_booked h ⟨rfl, rfl, rfl, rfl, rfl, rfl, id, fun hp => (putNZ_bit5 _ _).trans hp⟩ rfl rfl rfl)
  | tsx => rw [exec_tsx, execTsx] at h; exact wrap (by simp [Instr.mnemonic]) (implied_booked h ⟨rfl, rfl, rfl, rfl, rfl, rfl, id, fun hp => (putNZ_bit5 _ _).trans hp⟩ rfl rfl rfl)
  | inx => rw [exec_inx, execInx] at h; exact wrap (by simp [Instr.mnemonic]) (implied_booked h ⟨rfl, rfl, rfl, rfl, rfl, rfl, id, fun hp => (putNZ_bit5 _ _).trans hp⟩ rfl rfl rfl)
  | iny => rw [exec_iny, execIny] at h; exact wrap (by simp [Instr.mnemonic]) (implied_booked h ⟨rfl, rfl, rfl, rfl, rfl, rfl, id, fun hp => (putNZ_bit5 _ _).trans hp⟩ rfl rfl rfl)
  | dex => rw [exec_dex, execDex] at h; exact wrap (by simp [Instr.mnemonic]) (implied_booked h ⟨rfl, rfl, rfl, rfl, rfl, rfl, id, fun hp => (putNZ_bit5 _ _).trans hp⟩ rfl rfl rfl)
  | dey => rw [exec_dey, execDey] at h; exact wrap (by simp [Instr.mnemonic]) (implied_booked h ⟨rfl, rfl, rfl, rfl, rfl, rfl, id, fun hp => (putNZ_bit5 _ _).trans hp⟩ rfl rfl rfl)
  | txs => rw [exec_txs, execTxs] at h; exact wrap (by simp [Instr.mnemonic]) (implied_booked h ⟨rfl, rfl, rfl, rfl, rfl, rfl, id, id⟩ rfl rfl rfl)
  | nop => rw [exec_nop, execNop] at h; exact wrap (by simp [Instr.mnemonic]) (implied_booked h ⟨rfl, rfl, rfl, rfl, rfl, rfl, id, id⟩ rfl rfl rfl)
  | clc => rw [exec_clc, execClc] at h; exact wrap (by simp [Instr.mnemonic]) (implied_booked h (updateP_untouched _ _ (putFlag_bit5 _ _ _)) rfl rfl rfl)
  | cld => rw [exec_cld, execCld] at h; exact wrap (by simp [Instr.mnemonic]) (implied_booked h (updateP_untouched _ _ (putFlag_bit5 _ _ _)) rfl rfl rfl)
  | cli => rw [exec_cli, execCli] at h; exact wrap (by simp [Instr.mnemonic]) (implied_booked h (updateP_untouched _ _ (putFlag_bit5 _ _ _)) rfl rfl rfl)
  | clv => rw [exec_clv, execClv] at h; exact wrap (by simp [Instr.mnemonic]) (implied_booked h (updateP_untouched _ _ (putFlag_bit5 _ _ _)) rfl rfl rfl)
  | sec => rw [exec_sec, execSec] at h; exact wrap (by simp [Instr.mnemonic]) (implied_booked h (updateP_untouched _ _ (putFlag_bit5 _ _ _)) rfl rfl rfl)
  | sed => rw [exec_sed, execSed] at h; exact wrap (by simp [Instr.mnemonic]) (implied_booked h (updateP_untouched _ _ (putFlag_bit5 _ _ _)) rfl rfl rfl)
  | sei => rw [exec_sei, execSei] at h; exact wrap (by simp [Instr.mnemonic]) (implied_booked h (updateP_untouched _ _ (putFlag_bit5 _ _ _)) rfl rfl rfl)
  | pha => rw [exec_pha, execPha] at h; exact wrap (by simp [Instr.mnemonic]) (implied_booked h ⟨rfl, rfl, rfl, rfl, rfl, rfl, push_wf _ _, id⟩ rfl rfl rfl)
  | php => rw [exec_php, execPhp] at h; exact wrap (by simp [Instr.mnemonic]) (implied_booked h ⟨rfl, rfl, rfl, rfl, rfl, rfl, push_wf _ _, id⟩ rfl rfl rfl)
  | pla => rw [exec_pla, execPla] at h; exact wrap (by simp [Instr.mnemonic]) (implied_booked h ⟨rfl, rfl, rfl, rfl, rfl, rfl, id, fun hp => (putNZ_bit5 _ _).trans hp⟩ rfl rfl rfl)
  | plp => rw [exec_plp, execPlp] at h; exact wrap (by simp [Instr.mnemonic]) (implied_booked h ⟨rfl, rfl, rfl, rfl, rfl, rfl, id, fun _ => setP_bit5 _⟩ rfl rfl rfl)
  | rts =>
    rw [exec_rts, execRts] at h
    obtain ⟨op, ho, ht⟩ := withOpcode_next.mp h
    cases ht
    exact wrap (by simp [Instr.mnemonic]) ⟨op, ho, booked_book op 0 (t := s.returnFromSubroutine) ⟨rfl, rfl, rfl, rfl, rfl, rfl, id, id⟩ rfl rfl rfl⟩
  | rti =>
    rw [exec_rti, execRti] at h
    obtain ⟨op, ho, ht⟩ := withOpcode_next.mp h
    cases ht
    exact wrap (by simp [Instr.mnemonic]) ⟨op, ho, booked_book op 0 (t := s.returnFromInterrupt) ⟨rfl, rfl, rfl, rfl, rfl, rfl, id, fun _ => setP_bit5 _⟩ rfl rfl rfl⟩
  | brk =>
    rw [exec_brk, execBrk] at h
    obtain ⟨op, ho, ht⟩ := withOpcode_next.mp h
    cases ht
    have k := (takeInterrupt_untouched s irqVector (s.pc + 2) (s.readP ||| 0x30)).trans
      (updateP_untouched (putFlag .b true) _ (putFlag_bit5 _ _ _))
    refine wrap (by simp [Instr.mnemonic]) ⟨op, ho, booked_book op 0 k ?_ ?_ ?_⟩ <;> simp
  | jmp o =>
    rw [exec_jmp, execJmp] at h
    obtain ⟨op, ho, ht⟩ := withOpcode_next.mp h
    split at ht
    · exact wrap (by simp [Instr.mnemonic]) ⟨op, ho, vsr_booked (s := s) ht ⟨rfl, rfl, rfl, rfl, rfl, rfl, id, id⟩ rfl rfl rfl⟩
    · cases ht
  | jsr w =>
    rw [exec_jsr, execJsr] at h
    obtain ⟨op, ho, ht⟩ := withOpcode_next.mp h
    exact wrap (by simp [Instr.mnemonic]) ⟨op, ho, vsr_booked (s := s) ht ⟨rfl, rfl, rfl, rfl, rfl, rfl, pushWord_wf _ _, id⟩ rfl rfl rfl⟩
  | illegal op =>
    rw [exec_illegal, execIllegal] at h
    obtain ⟨op', ho, ht⟩ := withOpcode_next.mp h
    have : op' = op := by
      simp only [Instr.opcode] at ho; split at ho <;> simp_all
    subst this
    exact ⟨op', ho, .inr ⟨rfl, (Host.Outcome.next.inj ht).symm⟩⟩
end Sys2Proof.Machine
end

