-- ==== Sys2Proof/Laws/Interrupts.lean ====
section
/-! SUPPORT. Taking an interrupt, as one record update, and what the services of NMI and IRQ leave. -/

namespace Sys2Proof.Machine

/-- `stackAddr` as a number (20_memory.md R48). -/
theorem stackAddr_toNat (sp : Byte) : (stackAddr sp).toNat = 0x0100 + sp.toNat := by
  revert sp; decide

/-- A memory after three pushes from stack pointer `sp` on. -/
def pushed3 (m : Memory) (sp b₁ b₂ b₃ : Byte) : Memory :=
  ((m.write (stackAddr sp).toNat b₁).write (stackAddr (sp - 1)).toNat b₂).write (stackAddr (sp - 1 - 1)).toNat b₃

/-- Pushes leave every address from 0x0200 on as it was. -/
theorem pushed3_read (m : Memory) (sp b₁ b₂ b₃ : Byte) (n : Nat) (h : 0x0200 ≤ n) :
    (pushed3 m sp b₁ b₂ b₃).read n = m.read n := by
  have hne (b : Byte) : (stackAddr b).toNat ≠ n := by
    rw [stackAddr_toNat]
    omega
  rw [pushed3, Memory.read_write_ne (hne _), Memory.read_write_ne (hne _), Memory.read_write_ne (hne _)]

/-- Everything that taking an interrupt does (60_exceptions.md R204, 44_control.md R147). -/
theorem takeInterrupt_eq (s : State) (vec ret : Word) (st : Byte) :
    s.takeInterrupt vec ret st =
      let m := pushed3 s.mem s.sp (hiByte ret) (loByte ret) st
      { s with sp := s.sp - 1 - 1 - 1, p := putFlag .i true s.p, mem := m,
               pc := concat (m.read (vec + 1).toNat) (m.read vec.toNat) } := by
  unfold State.takeInterrupt State.loadPc State.read16 State.read State.setPc State.setFlag State.updateP
    State.pushWord State.push State.setS State.write pushed3
  rfl

/-! The services of NMI and IRQ: what they keep. -/

section
variable (s : State)
@[simp] theorem interruptEntry_a (vec : Word) : (s.interruptEntry vec).a = s.a := by
  rw [State.interruptEntry, takeInterrupt_a]
@[simp] theorem interruptEntry_x (vec : Word) : (s.interruptEntry vec).x = s.x := by
  rw [State.interruptEntry, takeInterrupt_x]
@[simp] theorem interruptEntry_y (vec : Word) : (s.interruptEntry vec).y = s.y := by
  rw [State.interruptEntry, takeInterrupt_y]
@[simp] theorem interruptEntry_nmiLatch (vec : Word) : (s.interruptEntry vec).nmiLatch = s.nmiLatch := by
  rw [State.interruptEntry, takeInterrupt_nmiLatch]
@[simp] theorem interruptEntry_irqLine (vec : Word) : (s.interruptEntry vec).irqLine = s.irqLine := by
  rw [State.interruptEntry, takeInterrupt_irqLine]
@[simp] theorem interruptEntry_cycles (vec : Word) : (s.interruptEntry vec).cycles = s.cycles := by
  rw [State.interruptEntry, takeInterrupt_cycles]
@[simp] theorem interruptEntry_stuckCount (vec : Word) : (s.interruptEntry vec).stuckCount = s.stuckCount := by
  rw [State.interruptEntry, takeInterrupt_stuckCount]
@[simp] theorem interruptEntry_runState (vec : Word) : (s.interruptEntry vec).runState = s.runState := by
  rw [State.interruptEntry, takeInterrupt_runState]
@[simp] theorem interruptEntry_coverage (vec : Word) : (s.interruptEntry vec).coverage = s.coverage := by
  rw [State.interruptEntry, takeInterrupt_coverage]
@[simp] theorem interruptEntry_vsr (vec : Word) : (s.interruptEntry vec).vsr = s.vsr := by
  rw [State.interruptEntry, takeInterrupt_vsr]
@[simp] theorem interruptEntry_powered (vec : Word) : (s.interruptEntry vec).powered = s.powered := by
  rw [State.interruptEntry, takeInterrupt_powered]
@[simp] theorem interruptEntry_exitReq (vec : Word) : (s.interruptEntry vec).exitReq = s.exitReq := by
  rw [State.interruptEntry, takeInterrupt_exitReq]
@[simp] theorem interruptEntry_vsrCalls (vec : Word) : (s.interruptEntry vec).vsrCalls = s.vsrCalls := by
  rw [State.interruptEntry, takeInterrupt_vsrCalls]
@[simp] theorem interruptEntry_params (vec : Word) : (s.interruptEntry vec).params = s.params := by
  rw [State.interruptEntry, takeInterrupt_params]
@[simp] theorem serviceNmi_a : s.serviceNmi.a = s.a := by
  rw [State.serviceNmi, addCycles_a, interruptEntry_a]
@[simp] theorem serviceNmi_x : s.serviceNmi.x = s.x := by
  rw [State.serviceNmi, addCycles_x, interruptEntry_x]
@[simp] theorem serviceNmi_y : s.serviceNmi.y = s.y := by
  rw [State.serviceNmi, addCycles_y, interruptEntry_y]
@[simp] theorem serviceNmi_nmiLatch : s.serviceNmi.nmiLatch = false := by
  rw [State.serviceNmi, addCycles_nmiLatch, interruptEntry_nmiLatch]
@[simp] theorem serviceNmi_irqLine : s.serviceNmi.irqLine = s.irqLine := by
  rw [State.serviceNmi, addCycles_irqLine, interruptEntry_irqLine]
@[simp] theorem serviceNmi_stuckCount : s.serviceNmi.stuckCount = s.stuckCount := by
  rw [State.serviceNmi, addCycles_stuckCount, interruptEntry_stuckCount]
@[simp] theorem serviceNmi_runState : s.serviceNmi.runState = s.runState := by
  rw [State.serviceNmi, addCycles_runState, interruptEntry_runState]
@[simp] theorem serviceNmi_coverage : s.serviceNmi.coverage = s.coverage := by
  rw [State.serviceNmi, addCycles_coverage, interruptEntry_coverage]
@[simp] theorem serviceNmi_vsr : s.serviceNmi.vsr = s.vsr := by
  rw [State.serviceNmi, addCycles_vsr, interruptEntry_vsr]
@[simp] theorem serviceNmi_powered : s.serviceNmi.powered = s.powered := by
  rw [State.serviceNmi, addCycles_powered, interruptEntry_powered]
@[simp] theorem serviceNmi_exitReq : s.serviceNmi.exitReq = s.exitReq := by
  rw [State.serviceNmi, addCycles_exitReq, interruptEntry_exitReq]
@[simp] theorem serviceNmi_vsrCalls : s.serviceNmi.vsrCalls = s.vsrCalls := by
  rw [State.serviceNmi, addCycles_vsrCalls, interruptEntry_vsrCalls]
@[simp] theorem serviceNmi_params : s.serviceNmi.params = s.params := by
  rw [State.serviceNmi, addCycles_params, interruptEntry_params]
@[simp] theorem serviceNmi_cycles : s.serviceNmi.cycles = s.cycles + 7 := by
  rw [State.serviceNmi, addCycles_cycles, interruptEntry_cycles]
@[simp] theorem serviceNmi_p : s.serviceNmi.p = putFlag .i true s.p := by
  rw [State.serviceNmi, addCycles_p, State.interruptEntry, takeInterrupt_p]
@[simp] theorem serviceNmi_sp : s.serviceNmi.sp = s.sp - 1 - 1 - 1 := by
  rw [State.serviceNmi, addCycles_sp, State.interruptEntry, takeInterrupt_sp]
@[simp] theorem serviceIrq_a : s.serviceIrq.a = s.a := by
  rw [State.serviceIrq, addCycles_a, interruptEntry_a]
@[simp] theorem serviceIrq_x : s.serviceIrq.x = s.x := by
  rw [State.serviceIrq, addCycles_x, interruptEntry_x]
@[simp] theorem serviceIrq_y : s.serviceIrq.y = s.y := by
  rw [State.serviceIrq, addCycles_y, interruptEntry_y]
@[simp] theorem serviceIrq_nmiLatch : s.serviceIrq.nmiLatch = s.nmiLatch := by
  rw [State.serviceIrq, addCycles_nmiLatch, interruptEntry_nmiLatch]
@[simp] theorem serviceIrq_irqLine : s.serviceIrq.irqLine = s.irqLine := by
  rw [State.serviceIrq, addCycles_irqLine, interruptEntry_irqLine]
@[simp] theorem serviceIrq_stuckCount : s.serviceIrq.stuckCount = s.stuckCount := by
  rw [State.serviceIrq, addCycles_stuckCount, interruptEntry_stuckCount]
@[simp] theorem serviceIrq_runState : s.serviceIrq.runState = s.runState := by
  rw [State.serviceIrq, addCycles_runState, interruptEntry_runState]
@[simp] theorem serviceIrq_coverage : s.serviceIrq.coverage = s.coverage := by
  rw [State.serviceIrq, addCycles_coverage, interruptEntry_coverage]
@[simp] theorem serviceIrq_vsr : s.serviceIrq.vsr = s.vsr := by
  rw [State.serviceIrq, addCycles_vsr, interruptEntry_vsr]
@[simp] theorem serviceIrq_powered : s.serviceIrq.powered = s.powered := by
  rw [State.serviceIrq, addCycles_powered, interruptEntry_powered]
@[simp] theorem serviceIrq_exitReq : s.serviceIrq.exitReq = s.exitReq := by
  rw [State.serviceIrq, addCycles_exitReq, interruptEntry_exitReq]
@[simp] theorem serviceIrq_vsrCalls : s.serviceIrq.vsrCalls = s.vsrCalls := by
  rw [State.serviceIrq, addCycles_vsrCalls, interruptEntry_vsrCalls]
@[simp] theorem serviceIrq_params : s.serviceIrq.params = s.params := by
  rw [State.serviceIrq, addCycles_params, interruptEntry_params]
@[simp] theorem serviceIrq_cycles : s.serviceIrq.cycles = s.cycles + 7 := by
  rw [State.serviceIrq, addCycles_cycles, interruptEntry_cycles]
@[simp] theorem serviceIrq_p : s.serviceIrq.p = putFlag .i true s.p := by
  rw [State.serviceIrq, addCycles_p, State.interruptEntry, takeInterrupt_p]
@[simp] theorem serviceIrq_sp : s.serviceIrq.sp = s.sp - 1 - 1 - 1 := by
  rw [State.serviceIrq, addCycles_sp, State.interruptEntry, takeInterrupt_sp]

theorem serviceNmi_wf (h : s.mem.wf = true) : s.serviceNmi.mem.wf = true := by
  rw [State.serviceNmi, addCycles_mem]
  exact takeInterrupt_wf _ _ _ _ h

theorem serviceIrq_wf (h : s.mem.wf = true) : s.serviceIrq.mem.wf = true := by
  rw [State.serviceIrq, addCycles_mem]
  exact takeInterrupt_wf _ _ _ _ h

end

end Sys2Proof.Machine
end

