-- ==== Sys2Proof/Laws/PerInstr.lean ====
section
/-! SUPPORT. Facts about every instruction as syntax, one lemma per constructor (LAWS.json). EncodeShape: a well-formed
instruction is encoded by an opcode byte that the opcode map gives back its mnemonic and mode for, followed by the
operand bytes, as many bytes as its mode's length. -/

namespace Sys2Proof.Laws.EncodeShape

/-- The shape of an instruction's encoding (30_encoding.md R61, R64, R69). -/
def Statement (i : Instr) : Prop :=
  i.wf = true →
    ∃ op, i.opcode = some op ∧ encode i = op :: i.operand.bytes ∧ lookup op = ⟨i.mnemonic, i.mode⟩ ∧
      (encode i).length = i.length

theorem adc (o : Operand) : Statement (.adc o) := shape_of_operand (.adc o) o rfl rfl rfl rfl
theorem and (o : Operand) : Statement (.and o) := shape_of_operand (.and o) o rfl rfl rfl rfl
theorem asl (o : Operand) : Statement (.asl o) := shape_of_operand (.asl o) o rfl rfl rfl rfl
theorem bcc (rel8 : Byte) : Statement (.bcc rel8) := shape_of_operand (.bcc rel8) (.relative rel8) rfl rfl rfl rfl
theorem bcs (rel8 : Byte) : Statement (.bcs rel8) := shape_of_operand (.bcs rel8) (.relative rel8) rfl rfl rfl rfl
theorem beq (rel8 : Byte) : Statement (.beq rel8) := shape_of_operand (.beq rel8) (.relative rel8) rfl rfl rfl rfl
theorem bit (o : Operand) : Statement (.bit o) := shape_of_operand (.bit o) o rfl rfl rfl rfl
theorem bmi (rel8 : Byte) : Statement (.bmi rel8) := shape_of_operand (.bmi rel8) (.relative rel8) rfl rfl rfl rfl
theorem bne (rel8 : Byte) : Statement (.bne rel8) := shape_of_operand (.bne rel8) (.relative rel8) rfl rfl rfl rfl
theorem bpl (rel8 : Byte) : Statement (.bpl rel8) := shape_of_operand (.bpl rel8) (.relative rel8) rfl rfl rfl rfl
theorem brk : Statement .brk := shape_of_operand .brk .implied rfl rfl rfl rfl
theorem bvc (rel8 : Byte) : Statement (.bvc rel8) := shape_of_operand (.bvc rel8) (.relative rel8) rfl rfl rfl rfl
theorem bvs (rel8 : Byte) : Statement (.bvs rel8) := shape_of_operand (.bvs rel8) (.relative rel8) rfl rfl rfl rfl
theorem clc : Statement .clc := shape_of_operand .clc .implied rfl rfl rfl rfl
theorem cld : Statement .cld := shape_of_operand .cld .implied rfl rfl rfl rfl
theorem cli : Statement .cli := shape_of_operand .cli .implied rfl rfl rfl rfl
theorem clv : Statement .clv := shape_of_operand .clv .implied rfl rfl rfl rfl
theorem cmp (o : Operand) : Statement (.cmp o) := shape_of_operand (.cmp o) o rfl rfl rfl rfl
theorem cpx (o : Operand) : Statement (.cpx o) := shape_of_operand (.cpx o) o rfl rfl rfl rfl
theorem cpy (o : Operand) : Statement (.cpy o) := shape_of_operand (.cpy o) o rfl rfl rfl rfl
theorem dec (o : Operand) : Statement (.dec o) := shape_of_operand (.dec o) o rfl rfl rfl rfl
theorem dex : Statement .dex := shape_of_operand .dex .implied rfl rfl rfl rfl
theorem dey : Statement .dey := shape_of_operand .dey .implied rfl rfl rfl rfl
theorem eor (o : Operand) : Statement (.eor o) := shape_of_operand (.eor o) o rfl rfl rfl rfl
theorem inc (o : Operand) : Statement (.inc o) := shape_of_operand (.inc o) o rfl rfl rfl rfl
theorem inx : Statement .inx := shape_of_operand .inx .implied rfl rfl rfl rfl
theorem iny : Statement .iny := shape_of_operand .iny .implied rfl rfl rfl rfl
theorem jmp (o : Operand) : Statement (.jmp o) := shape_of_operand (.jmp o) o rfl rfl rfl rfl
theorem jsr (target : Word) : Statement (.jsr target) := shape_of_operand (.jsr target) (.absolute target) rfl rfl rfl rfl
theorem lda (o : Operand) : Statement (.lda o) := shape_of_operand (.lda o) o rfl rfl rfl rfl
theorem ldx (o : Operand) : Statement (.ldx o) := shape_of_operand (.ldx o) o rfl rfl rfl rfl
theorem ldy (o : Operand) : Statement (.ldy o) := shape_of_operand (.ldy o) o rfl rfl rfl rfl
theorem lsr (o : Operand) : Statement (.lsr o) := shape_of_operand (.lsr o) o rfl rfl rfl rfl
theorem nop : Statement .nop := shape_of_operand .nop .implied rfl rfl rfl rfl
theorem ora (o : Operand) : Statement (.ora o) := shape_of_operand (.ora o) o rfl rfl rfl rfl
theorem pha : Statement .pha := shape_of_operand .pha .implied rfl rfl rfl rfl
theorem php : Statement .php := shape_of_operand .php .implied rfl rfl rfl rfl
theorem pla : Statement .pla := shape_of_operand .pla .implied rfl rfl rfl rfl
theorem plp : Statement .plp := shape_of_operand .plp .implied rfl rfl rfl rfl
theorem rol (o : Operand) : Statement (.rol o) := shape_of_operand (.rol o) o rfl rfl rfl rfl
theorem ror (o : Operand) : Statement (.ror o) := shape_of_operand (.ror o) o rfl rfl rfl rfl
theorem rti : Statement .rti := shape_of_operand .rti .implied rfl rfl rfl rfl
theorem rts : Statement .rts := shape_of_operand .rts .implied rfl rfl rfl rfl
theorem sbc (o : Operand) : Statement (.sbc o) := shape_of_operand (.sbc o) o rfl rfl rfl rfl
theorem sec : Statement .sec := shape_of_operand .sec .implied rfl rfl rfl rfl
theorem sed : Statement .sed := shape_of_operand .sed .implied rfl rfl rfl rfl
theorem sei : Statement .sei := shape_of_operand .sei .implied rfl rfl rfl rfl
theorem sta (o : Operand) : Statement (.sta o) := shape_of_operand (.sta o) o rfl rfl rfl rfl
theorem stx (o : Operand) : Statement (.stx o) := shape_of_operand (.stx o) o rfl rfl rfl rfl
theorem sty (o : Operand) : Statement (.sty o) := shape_of_operand (.sty o) o rfl rfl rfl rfl
theorem tax : Statement .tax := shape_of_operand .tax .implied rfl rfl rfl rfl
theorem tay : Statement .tay := shape_of_operand .tay .implied rfl rfl rfl rfl
theorem tsx : Statement .tsx := shape_of_operand .tsx .implied rfl rfl rfl rfl
theorem txa : Statement .txa := shape_of_operand .txa .implied rfl rfl rfl rfl
theorem txs : Statement .txs := shape_of_operand .txs .implied rfl rfl rfl rfl
theorem tya : Statement .tya := shape_of_operand .tya .implied rfl rfl rfl rfl
theorem illegal (op : Byte) : Statement (.illegal op) := shape_of_illegal op

end Sys2Proof.Laws.EncodeShape
end

