-- ==== Sys2Proof/Laws/Run.lean ====
section
/-! SUPPORT. The loop of run(n): what one step of it does, and that more steps allowed never change what it gives. -/

namespace Sys2Proof.Machine

/-- One step of the loop, the three outcomes of `step` apart. -/
theorem runLoop_next {s t : State} (h : step s = .next t) (start n fuel : Nat) :
    runLoop start n (fuel + 1) s =
      if t.runState ≠ .running then some (.returned t.runState t)
      else if t.cycles - start ≥ n then some (.returned .running t)
      else runLoop start n fuel t := by
  simp only [runLoop, h]

theorem runLoop_refused {s : State} {e : Refusal} (h : step s = .refused e) (start n fuel : Nat) :
    runLoop start n (fuel + 1) s = some (.refused e) := by simp only [runLoop, h]

theorem runLoop_fault {s : State} {e : Fault} (h : step s = .fault e) (start n fuel : Nat) :
    runLoop start n (fuel + 1) s = some (.fault e) := by simp only [runLoop, h]

/-- A loop that has ended gives the same with more steps allowed. -/
theorem runLoop_more {start n fuel more : Nat} {s : State} {r : RunResult} (h : runLoop start n fuel s = some r) :
    runLoop start n (fuel + more) s = some r := by
  induction fuel generalizing s with
  | zero => simp [runLoop] at h
  | succ fuel ih =>
    rw [Nat.add_right_comm]
    cases hs : step s with
    | fault e => rw [runLoop_fault hs] at h ⊢; exact h
    | refused e => rw [runLoop_refused hs] at h ⊢; exact h
    | next t =>
      rw [runLoop_next hs] at h ⊢
      split at h
      · rwa [if_pos ‹_›]
      · rw [if_neg ‹_›]
        split at h
        · rwa [if_pos ‹_›]
        · rw [if_neg ‹_›]; exact ih h

end Sys2Proof.Machine
end

