-- ==== Sys2Proof/Tests/Slice0.lean ====
section
/-! SUPPORT. Tests. Expected results are the spec's: the opcode map (30_encoding.md R65, R66), the vectors and scenarios of
95_test_vectors.md (named in each test's docstring), or the rule named there; none is the model's own answer. Then, for
every statement of Obligations.lean that has hypotheses, a witness that meets them. -/

open Sys2Proof Sys2Proof.Machine Sys2Proof.Claims

namespace Sys2Proof.Tests

set_option maxRecDepth 4000

/-! ### Helpers -/

/-- Bytes at consecutive addresses. -/
def bytesAt (a : Word) (bytes : List Byte) : List (Word × Byte) :=
  bytes.zipIdx.map fun (b, k) => (a + BitVec.ofNat 16 k, b)

/-- The start state of 95_test_vectors.md with the code at `pc` and the data bytes listed. -/
def cpuAt (pc : Word) (code : List Byte) (data : List (Word × Byte) := []) : State :=
  { State.construct (Memory.writeAll [] (bytesAt pc code ++ data)) .default with pc := pc, p := 0x20 }

/-- The same with the code at 0x0200. -/
def cpu (code : List Byte) (data : List (Word × Byte) := []) : State := cpuAt 0x0200 code data

/-- What a step leaves, seen through `f`. -/
def after {α : Type} (s : State) (f : State → α) : Option α :=
  match step s with
  | .next t => some (f t)
  | _ => none

/-- The result is a next state that satisfies `p`. -/
def goesOn (r : Result) (p : State → Bool := fun _ => true) : Bool :=
  match r with
  | .next t => p t
  | _ => false

/-- The result is a refusal. -/
def refuses (r : Result) (x : Refusal) : Bool :=
  match r with
  | .refused y => x == y
  | _ => false

theorem exists_of_goesOn {r : Result} {p : State → Bool} (h : goesOn r p = true) : ∃ t, r = .next t ∧ p t = true := by
  cases r with
  | next t => exact ⟨t, rfl, h⟩
  | fault _ => cases h
  | refused _ => cases h

theorem eq_of_refuses {r : Result} {x : Refusal} (h : refuses r x = true) : r = .refused x := by
  cases r with
  | refused y => exact congrArg _ (of_decide_eq_true h).symm
  | next _ => cases h
  | fault _ => cases h

/-- The bytes decode to the instruction, all of them. -/
def decodes (bytes : List Byte) (i : Instr) : Bool :=
  match decode bytes with
  | .ok (j, rest) => j == i && rest.isEmpty
  | .error _ => false

/-! ### Well-formedness: an ill-formed term for each check of `Instr.wf` -/

/-- R66, R97: there is no STA Immediate. -/
theorem test_wf_refuses_a_mode_without_encoding : (Instr.sta (.immediate 0x01)).wf = false := by decide

/-- R70: ZeroPageY is LDX's and STX's alone. -/
theorem test_wf_refuses_lda_zeroPageY : (Instr.lda (.zeroPageY 0x10)).wf = false := by decide

/-- R67: 0xEA (NOP) is not an illegal opcode value. -/
theorem test_wf_refuses_a_legal_value_as_illegal : (Instr.illegal 0xEA).wf = false := by decide

/-- R67: 0x02 and 0xFF are. -/
theorem test_wf_accepts_illegal_values : (Instr.illegal 0x02).wf = true ∧ (Instr.illegal 0xFF).wf = true := by decide

/-- R66: "the combination is not encodable": such a term has no encoding, and its meaning is a refusal by name (log 12). -/
theorem test_ill_formed_terms_are_refused :
    encode (.sta (.immediate 0x01)) = [] ∧ refuses (exec (.sta (.immediate 0x01)) (cpu [])) .notEncodable = true ∧
      refuses (exec (.illegal 0xEA) (cpu [])) .notEncodable = true := by decide

/-! ### Decoding: a word of every constructor, written out from R65 and R66 -/

theorem test_decode_loads_stores_transfers :
    decodes [0xA9, 0x05] (.lda (.immediate 0x05)) ∧ decodes [0xB1, 0x20] (.lda (.indirectYIndexed 0x20)) ∧
    decodes [0xB6, 0x10] (.ldx (.zeroPageY 0x10)) ∧ decodes [0xBC, 0x34, 0x12] (.ldy (.absoluteX 0x1234)) ∧
    decodes [0x81, 0x20] (.sta (.xIndexedIndirect 0x20)) ∧ decodes [0x99, 0xF0, 0x03] (.sta (.absoluteY 0x03F0)) ∧
    decodes [0x96, 0x80] (.stx (.zeroPageY 0x80)) ∧ decodes [0x8C, 0x34, 0x12] (.sty (.absolute 0x1234)) ∧
    decodes [0xAA] .tax ∧ decodes [0xA8] .tay ∧ decodes [0x8A] .txa ∧ decodes [0x98] .tya ∧ decodes [0xBA] .tsx ∧
    decodes [0x9A] .txs := by decide

theorem test_decode_arithmetic_logic :
    decodes [0x61, 0x10] (.adc (.xIndexedIndirect 0x10)) ∧ decodes [0xE9, 0xF0] (.sbc (.immediate 0xF0)) ∧
    decodes [0x39, 0x00, 0x03] (.and (.absoluteY 0x0300)) ∧ decodes [0x05, 0x10] (.ora (.zeroPage 0x10)) ∧
    decodes [0x55, 0x10] (.eor (.zeroPageX 0x10)) ∧ decodes [0xD1, 0x10] (.cmp (.indirectYIndexed 0x10)) ∧
    decodes [0xE0, 0x01] (.cpx (.immediate 0x01)) ∧ decodes [0xC4, 0x10] (.cpy (.zeroPage 0x10)) ∧
    decodes [0x2C, 0x00, 0x03] (.bit (.absolute 0x0300)) ∧ decodes [0xFE, 0xFF, 0x03] (.inc (.absoluteX 0x03FF)) ∧
    decodes [0xC6, 0x10] (.dec (.zeroPage 0x10)) ∧ decodes [0xE8] .inx ∧ decodes [0xC8] .iny ∧ decodes [0xCA] .dex ∧
    decodes [0x88] .dey := by decide

theorem test_decode_shifts_rotates :
    decodes [0x0A] (.asl .accumulator) ∧ decodes [0x5E, 0x00, 0x03] (.lsr (.absoluteX 0x0300)) ∧
    decodes [0x36, 0x10] (.rol (.zeroPageX 0x10)) ∧ decodes [0x6E, 0x00, 0x03] (.ror (.absolute 0x0300)) := by decide

theorem test_decode_control :
    decodes [0x90, 0x05] (.bcc 0x05) ∧ decodes [0xB0, 0x05] (.bcs 0x05) ∧ decodes [0xF0, 0xFE] (.beq 0xFE) ∧
    decodes [0x30, 0x20] (.bmi 0x20) ∧ decodes [0xD0, 0xFB] (.bne 0xFB) ∧ decodes [0x10, 0x80] (.bpl 0x80) ∧
    decodes [0x50, 0x10] (.bvc 0x10) ∧ decodes [0x70, 0x10] (.bvs 0x10) ∧
    decodes [0x4C, 0x34, 0x12] (.jmp (.absolute 0x1234)) ∧ decodes [0x6C, 0xFF, 0x10] (.jmp (.indirect 0x10FF)) ∧
    decodes [0x20, 0xF7, 0xFF] (.jsr 0xFFF7) ∧ decodes [0x60] .rts ∧ decodes [0x40] .rti ∧ decodes [0x00] .brk := by decide

theorem test_decode_stack_flags_illegal :
    decodes [0x48] .pha ∧ decodes [0x08] .php ∧ decodes [0x68] .pla ∧ decodes [0x28] .plp ∧ decodes [0x18] .clc ∧
    decodes [0xD8] .cld ∧ decodes [0x58] .cli ∧ decodes [0xB8] .clv ∧ decodes [0x38] .sec ∧ decodes [0xF8] .sed ∧
    decodes [0x78] .sei ∧ decodes [0xEA] .nop ∧ decodes [0x02] (.illegal 0x02) ∧ decodes [0x80] (.illegal 0x80) := by decide

/-- A table word is laid out first byte lowest, operand bytes zero where the table gives none (30_encoding.md R61). -/
theorem test_decodeTableWord :
    decodeTableWord 8 0xAD = some (.lda (.absolute 0x0000)) ∧ decodeTableWord 24 0x1234AD = some (.lda (.absolute 0x1234)) ∧
      decodeTableWord 16 0xFEF0 = some (.beq 0xFE) ∧ decodeTableWord 8 0x02 = some (.illegal 0x02) := by decide

/-- The very next step after `withFetchWord` runs that instruction. -/
theorem test_withFetchWord :
    (State.reset.withFetchWord 16 0x05A9).fetch = .lda (.immediate 0x05) ∧
      after (State.reset.withFetchWord 16 0x05A9) (fun t => (t.pc, t.a)) = some (0x0002, 0x05) := by decide

/-! ### One step: vectors of 95_test_vectors.md, sections 2 (numbered by its table) and 1 (S) -/

/-- 40.9: LDA (zp,X), pointer at 0x00FF/0x0000 (R85 R94). -/
theorem test_lda_40_9 :
    after { cpu [0xA1, 0xFE] [(0x0000, 0x12), (0x00FF, 0x34), (0x1234, 0x77)] with x := 0x01 } (fun t => (t.pc, t.cycles, t.p, t.a)) =
      some (0x0202, 6, 0x20, 0x77) := by decide

/-- 40.11: LDA (zp),Y, page cross +1 (R86 R89). -/
theorem test_lda_40_11 :
    after { cpu [0xB1, 0x20] [(0x0020, 0xF8), (0x0021, 0x04), (0x0508, 0x02)] with y := 0x10 } (fun t => (t.pc, t.cycles, t.p, t.a)) =
      some (0x0202, 6, 0x20, 0x02) := by decide

/-- 40.3: LDX zp,Y wraps in page 0 (R80 R95). -/
theorem test_ldx_40_3 :
    after { cpu [0xB6, 0xFF] [(0x0001, 0x00)] with y := 0x02 } (fun t => (t.pc, t.cycles, t.p)) =
      some (0x0202, 4, 0x22) := by decide

/-- 41.3: LDX #$7F (R95). -/
theorem test_ldx_41_3 :
    after { cpu [0xA2, 0x7F] with p := 0xA2 } (fun t => (t.pc, t.cycles, t.p, t.x)) =
      some (0x0202, 2, 0x20, 0x7F) := by decide

/-- 41.5: LDY abs,X crossing (R96). -/
theorem test_ldy_41_5 :
    after { cpu [0xBC, 0xF0, 0x12] [(0x1300, 0x01)] with x := 0x10 } (fun t => (t.pc, t.cycles, t.p, t.y)) =
      some (0x0203, 5, 0x20, 0x01) := by decide

/-- 40.15: STA abs,X crossing: no penalty (R90 R97). -/
theorem test_sta_40_15 :
    after { cpu [0x9D, 0xF0, 0x03] with a := 0x09, x := 0x20 } (fun t => (t.pc, t.cycles, t.p, t.read 0x0410)) =
      some (0x0203, 5, 0x20, 0x09) := by decide

/-- 40.16: STA (zp),Y crossing: no penalty (R90 R97). -/
theorem test_sta_40_16 :
    after { cpu [0x91, 0x20] [(0x0020, 0xF8), (0x0021, 0x04)] with a := 0x0A, y := 0x10 } (fun t => (t.pc, t.cycles, t.p, t.read 0x0508)) =
      some (0x0202, 6, 0x20, 0x0A) := by decide

/-- 41.7: STX zp,Y wraps (R98). -/
theorem test_stx_41_7 :
    after { cpu [0x96, 0xF0] with x := 0x66, y := 0x20 } (fun t => (t.pc, t.cycles, t.p, t.read 0x0010)) =
      some (0x0202, 4, 0x20, 0x66) := by decide

/-- 41.8: STY zp,X (R99). -/
theorem test_sty_41_8 :
    after { cpu [0x94, 0x10] with x := 0x01, y := 0x77 } (fun t => (t.pc, t.cycles, t.p, t.read 0x0011)) =
      some (0x0202, 4, 0x20, 0x77) := by decide

/-- 41.10: TAX of 0: Z (R100). -/
theorem test_tax_41_10 :
    after { cpu [0xAA] with x := 0x33 } (fun t => (t.pc, t.cycles, t.p, t.x)) =
      some (0x0201, 2, 0x22, 0x00) := by decide

/-- 41.11: TAY of 0x80: N (R101). -/
theorem test_tay_41_11 :
    after { cpu [0xA8] with a := 0x80 } (fun t => (t.pc, t.cycles, t.p, t.y)) =
      some (0x0201, 2, 0xA0, 0x80) := by decide

/-- 41.12: TXA (R102). -/
theorem test_txa_41_12 :
    after { cpu [0x8A] with x := 0x01, p := 0xA2 } (fun t => (t.pc, t.cycles, t.p, t.a)) =
      some (0x0201, 2, 0x20, 0x01) := by decide

/-- 41.13: TYA (R103). -/
theorem test_tya_41_13 :
    after { cpu [0x98] with y := 0xF0 } (fun t => (t.pc, t.cycles, t.p, t.a)) =
      some (0x0201, 2, 0xA0, 0xF0) := by decide

/-- 41.14: TSX: N from S (R104). -/
theorem test_tsx_41_14 :
    after (cpu [0xBA]) (fun t => (t.pc, t.cycles, t.p, t.x)) =
      some (0x0201, 2, 0xA0, 0xFD) := by decide

/-- 41.15: TXS of 0: no flags change (R105). -/
theorem test_txs_41_15 :
    after (cpu [0x9A]) (fun t => (t.pc, t.cycles, t.p, t.sp)) =
      some (0x0201, 2, 0x20, 0x00) := by decide

/-- 42.3: ADC: carry in (R114 R108). -/
theorem test_adc_42_3 :
    after { cpu [0x69, 0x00] with p := 0x21 } (fun t => (t.pc, t.cycles, t.p, t.a)) =
      some (0x0202, 2, 0x20, 0x01) := by decide

/-- 42.6: ADC decimal 99+01: Z from binary sum (R114 R109). -/
theorem test_adc_42_6 :
    after { cpu [0x69, 0x01] with a := 0x99, p := 0x28 } (fun t => (t.pc, t.cycles, t.p, t.a)) =
      some (0x0202, 2, 0xA9, 0x00) := by decide

/-- 42.14: SBC 0x80-0x01: V (R115 R110). -/
theorem test_sbc_42_14 :
    after { cpu [0xE9, 0x01] with a := 0x80, p := 0x21 } (fun t => (t.pc, t.cycles, t.p, t.a)) =
      some (0x0202, 2, 0x61, 0x7F) := by decide

/-- 42.20: SBC decimal 50-01-borrow (R115 R111). -/
theorem test_sbc_42_20 :
    after { cpu [0xE9, 0x01] with a := 0x50, p := 0x28 } (fun t => (t.pc, t.cycles, t.p, t.a)) =
      some (0x0202, 2, 0x29, 0x48) := by decide

/-- 42.21: AND: zero (R116). -/
theorem test_and_42_21 :
    after { cpu [0x29, 0x0F] with a := 0xF0 } (fun t => (t.pc, t.cycles, t.p, t.a)) =
      some (0x0202, 2, 0x22, 0x00) := by decide

/-- 42.22: ORA: N (R117). -/
theorem test_ora_42_22 :
    after { cpu [0x09, 0x80] with a := 0x01 } (fun t => (t.pc, t.cycles, t.p, t.a)) =
      some (0x0202, 2, 0xA0, 0x81) := by decide

/-- 42.23: EOR: zero (R118). -/
theorem test_eor_42_23 :
    after { cpu [0x49, 0xFF] with a := 0xFF } (fun t => (t.pc, t.cycles, t.p, t.a)) =
      some (0x0202, 2, 0x22, 0x00) := by decide

/-- 42.25: CMP 0x00 vs 0x01 (R119 R107). -/
theorem test_cmp_42_25 :
    after (cpu [0xC9, 0x01]) (fun t => (t.pc, t.cycles, t.p)) =
      some (0x0202, 2, 0xA0) := by decide

/-- 42.26: CMP 0x80 vs 0x01 (signed reading irrelevant) (R119 R107). -/
theorem test_cmp_42_26 :
    after { cpu [0xC9, 0x01] with a := 0x80 } (fun t => (t.pc, t.cycles, t.p)) =
      some (0x0202, 2, 0x21) := by decide

/-- 42.27: CPX # (R120 R107). -/
theorem test_cpx_42_27 :
    after { cpu [0xE0, 0x10] with x := 0x20 } (fun t => (t.pc, t.cycles, t.p)) =
      some (0x0202, 2, 0x21) := by decide

/-- 42.28: CPY zp (R121 R107). -/
theorem test_cpy_42_28 :
    after { cpu [0xC4, 0x30] [(0x0030, 0x05)] with y := 0x05 } (fun t => (t.pc, t.cycles, t.p)) =
      some (0x0202, 3, 0x23) := by decide

/-- 42.29: BIT zp (R122 R112). -/
theorem test_bit_42_29 :
    after { cpu [0x24, 0x40] [(0x0040, 0xC0)] with a := 0x01 } (fun t => (t.pc, t.cycles, t.p)) =
      some (0x0202, 3, 0xE2) := by decide

/-- 42.30: BIT abs: Z clear, N V clear (R122 R112). -/
theorem test_bit_42_30 :
    after { cpu [0x2C, 0x00, 0x30] [(0x3000, 0x01)] with a := 0x3F, p := 0xE0 } (fun t => (t.pc, t.cycles, t.p)) =
      some (0x0203, 4, 0x20) := by decide

/-- 42.31: INC zp wraps to 0 (R123). -/
theorem test_inc_42_31 :
    after (cpu [0xE6, 0x10] [(0x0010, 0xFF)]) (fun t => (t.pc, t.cycles, t.p, t.read 0x0010)) =
      some (0x0202, 5, 0x22, 0x00) := by decide

/-- 42.33: INC abs,X crossing: fixed 7 (R123). -/
theorem test_inc_42_33 :
    after { cpu [0xFE, 0xF0, 0x30] [(0x3110, 0x7F)] with x := 0x20 } (fun t => (t.pc, t.cycles, t.p, t.read 0x3110)) =
      some (0x0203, 7, 0xA0, 0x80) := by decide

/-- 42.32: DEC abs wraps to 0xFF (R124). -/
theorem test_dec_42_32 :
    after (cpu [0xCE, 0x00, 0x30] [(0x3000, 0x00)]) (fun t => (t.pc, t.cycles, t.p, t.read 0x3000)) =
      some (0x0203, 6, 0xA0, 0xFF) := by decide

/-- 42.34: INX wraps (R125). -/
theorem test_inx_42_34 :
    after { cpu [0xE8] with x := 0xFF } (fun t => (t.pc, t.cycles, t.p, t.x)) =
      some (0x0201, 2, 0x22, 0x00) := by decide

/-- 42.35: INY (R126). -/
theorem test_iny_42_35 :
    after { cpu [0xC8] with y := 0x7F } (fun t => (t.pc, t.cycles, t.p, t.y)) =
      some (0x0201, 2, 0xA0, 0x80) := by decide

/-- 42.36: DEX wraps (R127). -/
theorem test_dex_42_36 :
    after (cpu [0xCA]) (fun t => (t.pc, t.cycles, t.p, t.x)) =
      some (0x0201, 2, 0xA0, 0xFF) := by decide

/-- 42.37: DEY to 0 (R128). -/
theorem test_dey_42_37 :
    after { cpu [0x88] with y := 0x01 } (fun t => (t.pc, t.cycles, t.p, t.y)) =
      some (0x0201, 2, 0x22, 0x00) := by decide

/-- 43.2: ASL zp: 0x80 to 0 (R130). -/
theorem test_asl_43_2 :
    after (cpu [0x06, 0x10] [(0x0010, 0x80)]) (fun t => (t.pc, t.cycles, t.p, t.read 0x0010)) =
      some (0x0202, 5, 0x23, 0x00) := by decide

/-- 40.17: ASL abs,X crossing: fixed 7 (R91 R130). -/
theorem test_asl_40_17 :
    after { cpu [0x1E, 0xF0, 0x03] [(0x0410, 0x01)] with x := 0x20 } (fun t => (t.pc, t.cycles, t.p, t.read 0x0410)) =
      some (0x0203, 7, 0x20, 0x02) := by decide

/-- 43.3: LSR A (R131). -/
theorem test_lsr_43_3 :
    after { cpu [0x4A] with a := 0x03, p := 0xA0 } (fun t => (t.pc, t.cycles, t.p, t.a)) =
      some (0x0201, 2, 0x21, 0x01) := by decide

/-- 43.4: LSR abs: 0x01 to 0 (R131). -/
theorem test_lsr_43_4 :
    after (cpu [0x4E, 0x00, 0x30] [(0x3000, 0x01)]) (fun t => (t.pc, t.cycles, t.p, t.read 0x3000)) =
      some (0x0203, 6, 0x23, 0x00) := by decide

/-- 43.5: ROL A with C (R132). -/
theorem test_rol_43_5 :
    after { cpu [0x2A] with a := 0x80, p := 0x21 } (fun t => (t.pc, t.cycles, t.p, t.a)) =
      some (0x0201, 2, 0x21, 0x01) := by decide

/-- 43.6: ROL zp without C (R132). -/
theorem test_rol_43_6 :
    after (cpu [0x26, 0x10] [(0x0010, 0x40)]) (fun t => (t.pc, t.cycles, t.p, t.read 0x0010)) =
      some (0x0202, 5, 0xA0, 0x80) := by decide

/-- 43.7: ROR A with C (R133). -/
theorem test_ror_43_7 :
    after { cpu [0x6A] with a := 0x01, p := 0x21 } (fun t => (t.pc, t.cycles, t.p, t.a)) =
      some (0x0201, 2, 0xA1, 0x80) := by decide

/-- 43.8: ROR zp,X without C (R133). -/
theorem test_ror_43_8 :
    after { cpu [0x76, 0x0F] [(0x0010, 0x02)] with x := 0x01 } (fun t => (t.pc, t.cycles, t.p, t.read 0x0010)) =
      some (0x0202, 6, 0x20, 0x01) := by decide

/-- 44.2: BEQ taken, page cross (R137 R134). -/
theorem test_beq_44_2 :
    after { cpuAt 0x02F9 [0xF0, 0x05] with p := 0x22 } (fun t => (t.pc, t.cycles, t.p)) =
      some (0x0300, 4, 0x22) := by decide

/-- 44.3: BEQ not taken (R137 R134). -/
theorem test_beq_44_3 :
    after (cpu [0xF0, 0x05]) (fun t => (t.pc, t.cycles, t.p)) =
      some (0x0202, 2, 0x20) := by decide

/-- 44.4: BNE backward (R139 R134). -/
theorem test_bne_44_4 :
    after (cpuAt 0x0210 [0xD0, 0xFB]) (fun t => (t.pc, t.cycles, t.p)) =
      some (0x020D, 3, 0x20) := by decide

/-- 44.5: BPL backward, page cross (R140 R134). -/
theorem test_bpl_44_5 :
    after (cpuAt 0x0300 [0x10, 0x80]) (fun t => (t.pc, t.cycles, t.p)) =
      some (0x0282, 4, 0x20) := by decide

/-- 44.6: BMI forward, page cross (R138 R134). -/
theorem test_bmi_44_6 :
    after { cpuAt 0x02F0 [0x30, 0x20] with p := 0xA0 } (fun t => (t.pc, t.cycles, t.p)) =
      some (0x0312, 4, 0xA0) := by decide

/-- 44.7: BCC taken (R135). -/
theorem test_bcc_44_7 :
    after (cpu [0x90, 0x05]) (fun t => (t.pc, t.cycles, t.p)) =
      some (0x0207, 3, 0x20) := by decide

/-- 44.8: BCS not taken (R136). -/
theorem test_bcs_44_8 :
    after (cpu [0xB0, 0x05]) (fun t => (t.pc, t.cycles, t.p)) =
      some (0x0202, 2, 0x20) := by decide

/-- 44.9: BVC not taken (R141). -/
theorem test_bvc_44_9 :
    after { cpu [0x50, 0x10] with p := 0x60 } (fun t => (t.pc, t.cycles, t.p)) =
      some (0x0202, 2, 0x60) := by decide

/-- 44.10: BVS taken (R142). -/
theorem test_bvs_44_10 :
    after { cpu [0x70, 0x10] with p := 0x60 } (fun t => (t.pc, t.cycles, t.p)) =
      some (0x0212, 3, 0x60) := by decide

/-- 40.13: JMP ($10FF), JMP_IND_PAGE_WRAP = true (R84 R143). -/
theorem test_jmp_40_13 :
    after (cpu [0x6C, 0xFF, 0x10] [(0x1000, 0x12), (0x10FF, 0x34), (0x1100, 0x56)]) (fun t => (t.pc, t.cycles, t.p)) =
      some (0x1234, 5, 0x20) := by decide

/-- 40.14: JMP ($10FF), JMP_IND_PAGE_WRAP = false (R84 R143). -/
theorem test_jmp_40_14 :
    after { cpu [0x6C, 0xFF, 0x10] [(0x1000, 0x12), (0x10FF, 0x34), (0x1100, 0x56)] with params := { Params.default with jmpIndPageWrap := false } } (fun t => (t.pc, t.cycles, t.p)) =
      some (0x5634, 5, 0x20) := by decide

/-- 44.15: JSR (R144). -/
theorem test_jsr_44_15 :
    after (cpu [0x20, 0x00, 0x10]) (fun t => (t.pc, t.cycles, t.p, t.sp, t.read 0x01FD, t.read 0x01FC)) =
      some (0x1000, 6, 0x20, 0xFB, 0x02, 0x02) := by decide

/-- 44.16: JSR with S=0x00 (R144). -/
theorem test_jsr_44_16 :
    after { cpu [0x20, 0x00, 0x10] with sp := 0x00 } (fun t => (t.pc, t.cycles, t.p, t.sp, t.read 0x0100, t.read 0x01FF)) =
      some (0x1000, 6, 0x20, 0xFE, 0x02, 0x02) := by decide

/-- 44.17: RTS (R145). -/
theorem test_rts_44_17 :
    after { cpu [0x60] [(0x01FC, 0x02), (0x01FD, 0x02)] with sp := 0xFB } (fun t => (t.pc, t.cycles, t.p, t.sp)) =
      some (0x0203, 6, 0x20, 0xFD) := by decide

/-- 44.18: RTS of 0xFFFF resumes at 0x0000 (R145). -/
theorem test_rts_44_18 :
    after { cpu [0x60] [(0x01FC, 0xFF), (0x01FD, 0xFF)] with sp := 0xFB } (fun t => (t.pc, t.cycles, t.p, t.sp)) =
      some (0x0000, 6, 0x20, 0xFD) := by decide

/-- 44.19: RTI (R146). -/
theorem test_rti_44_19 :
    after { cpu [0x40] [(0x01FB, 0x20), (0x01FC, 0x34), (0x01FD, 0x12)] with sp := 0xFA, p := 0x24 } (fun t => (t.pc, t.cycles, t.p, t.sp)) =
      some (0x1234, 6, 0x20, 0xFD) := by decide

/-- 44.20: RTI loads B, forces bit 5 (R146). -/
theorem test_rti_44_20 :
    after { cpu [0x40] [(0x01FB, 0xDF), (0x01FC, 0x00), (0x01FD, 0x40)] with sp := 0xFA } (fun t => (t.pc, t.cycles, t.p, t.sp)) =
      some (0x4000, 6, 0xFF, 0xFD) := by decide

/-- 44.21: BRK (R147). -/
theorem test_brk_44_21 :
    after { cpuAt 0x0300 [0x00, 0xEA] [(0xFFFE, 0x00), (0xFFFF, 0x90)] with p := 0x36 } (fun t => ((t.pc, t.cycles, t.p, t.sp), t.read 0x01FD, t.read 0x01FC, t.read 0x01FB)) =
      some ((0x9000, 7, 0x36, 0xFA), 0x03, 0x02, 0x36) := by decide

/-- 44.22: BRK with I=1 and D=1 (R147). -/
theorem test_brk_44_22 :
    after { cpuAt 0x0300 [0x00, 0xEA] [(0xFFFE, 0x00), (0xFFFF, 0x90)] with p := 0x2C } (fun t => ((t.pc, t.cycles, t.p, t.sp), t.read 0x01FD, t.read 0x01FC, t.read 0x01FB)) =
      some ((0x9000, 7, 0x3C, 0xFA), 0x03, 0x02, 0x3C) := by decide

/-- 45.2: PHA at S=0x00 wraps (R149 R48). -/
theorem test_pha_45_2 :
    after { cpu [0x48] with a := 0x42, sp := 0x00 } (fun t => (t.pc, t.cycles, t.p, t.sp, t.read 0x0100)) =
      some (0x0201, 3, 0x20, 0xFF, 0x42) := by decide

/-- 45.3: PHP sets bits 4 and 5 in the copy (R150). -/
theorem test_php_45_3 :
    after (cpu [0x08]) (fun t => (t.pc, t.cycles, t.p, t.sp, t.read 0x01FD)) =
      some (0x0201, 3, 0x20, 0xFC, 0x30) := by decide

/-- 45.5: PLA of 0: Z (R151). -/
theorem test_pla_45_5 :
    after { cpu [0x68] [(0x01FD, 0x00)] with a := 0x11, sp := 0xFC } (fun t => (t.pc, t.cycles, t.p, t.a, t.sp)) =
      some (0x0201, 4, 0x22, 0x00, 0xFD) := by decide

/-- 45.6: PLA at S=0xFF wraps (R151 R49). -/
theorem test_pla_45_6 :
    after { cpu [0x68] [(0x0100, 0x80)] with sp := 0xFF } (fun t => (t.pc, t.cycles, t.p, t.a, t.sp)) =
      some (0x0201, 4, 0xA0, 0x80, 0x00) := by decide

/-- 45.7: PLP (R152). -/
theorem test_plp_45_7 :
    after { cpu [0x28] [(0x01FD, 0xC3)] with sp := 0xFC } (fun t => (t.pc, t.cycles, t.p, t.sp)) =
      some (0x0201, 4, 0xE3, 0xFD) := by decide

/-- 45.8: PLP of 0x00 (R152). -/
theorem test_plp_45_8 :
    after { cpu [0x28] [(0x01FD, 0x00)] with sp := 0xFC, p := 0xFF } (fun t => (t.pc, t.cycles, t.p, t.sp)) =
      some (0x0201, 4, 0x20, 0xFD) := by decide

/-- 45.9: CLC (R153). -/
theorem test_clc_45_9 :
    after { cpu [0x18] with p := 0x21 } (fun t => (t.pc, t.cycles, t.p)) =
      some (0x0201, 2, 0x20) := by decide

/-- 45.10: CLD (R154). -/
theorem test_cld_45_10 :
    after { cpu [0xD8] with p := 0x28 } (fun t => (t.pc, t.cycles, t.p)) =
      some (0x0201, 2, 0x20) := by decide

/-- 45.11: CLI (R155). -/
theorem test_cli_45_11 :
    after { cpu [0x58] with p := 0x24 } (fun t => (t.pc, t.cycles, t.p)) =
      some (0x0201, 2, 0x20) := by decide

/-- 45.12: CLV (R156). -/
theorem test_clv_45_12 :
    after { cpu [0xB8] with p := 0x60 } (fun t => (t.pc, t.cycles, t.p)) =
      some (0x0201, 2, 0x20) := by decide

/-- 45.13: SEC (R157). -/
theorem test_sec_45_13 :
    after (cpu [0x38]) (fun t => (t.pc, t.cycles, t.p)) =
      some (0x0201, 2, 0x21) := by decide

/-- 45.14: SED (R158). -/
theorem test_sed_45_14 :
    after (cpu [0xF8]) (fun t => (t.pc, t.cycles, t.p)) =
      some (0x0201, 2, 0x28) := by decide

/-- 45.15: SEI (R159). -/
theorem test_sei_45_15 :
    after (cpu [0x78]) (fun t => (t.pc, t.cycles, t.p)) =
      some (0x0201, 2, 0x24) := by decide

/-- 45.16: NOP (R160). -/
theorem test_nop_45_16 :
    after (cpu [0xEA]) (fun t => (t.pc, t.cycles, t.p)) =
      some (0x0201, 2, 0x20) := by decide
/-- S11: an illegal opcode (R171). -/
theorem test_illegal_S11 :
    after (cpu [0x02]) (fun t => (t.runState, t.pc, t.cycles, t.coverage)) =
      some (.illegalOpcode 0x0200 0x02, 0x0201, 0, []) := by decide

/-- S9: with NMI latched and IRQ asserted the NMI is serviced (R203, R204). -/
theorem test_nmi_before_irq_S9 :
    after { cpu [0xEA] [(0xFFFB, 0x90), (0xFFFF, 0xA0)] with nmiLatch := true, irqLine := true } (fun t =>
      ((t.pc, t.sp, t.p, t.cycles), t.read 0x01FD, t.read 0x01FC, t.read 0x01FB)) =
      some ((0x9000, 0xFA, 0x24, 7), 0x02, 0x00, 0x20) := by decide

/-- R206: an IRQ with I clear is serviced through 0xFFFE and the line is kept. -/
theorem test_irq_serviced :
    after { cpu [0xEA] [(0xFFFF, 0xA0)] with irqLine := true } (fun t => (t.pc, t.p, t.cycles, t.irqLine, t.coverage)) =
      some (0xA000, 0x24, 7, true, []) := by decide

/-- S10: JSR to a registered address runs its callback once and resumes after the JSR (R175). -/
theorem test_vsr_S10 :
    after (registerVsr 0xFFF7 (.known []) (cpu [0x20, 0xF7, 0xFF, 0xEA])) (fun t => (t.pc, t.sp, t.cycles, t.vsrCalls)) =
      some (0x0203, 0xFD, 6, 1) := by decide

/-- R176: a callback that requests exit ends the step in Exited with A as the status. -/
theorem test_vsr_exit :
    after (registerVsr 0xFFF7 (.known [.setReg .a (.const 0x2A), .requestExit]) (cpu [0x20, 0xF7, 0xFF])) (fun t =>
      (t.runState, t.pc, t.exitReq)) = some (.exited 0x2A 6 ⟨1, 151⟩, 0x0203, false) := by decide

/-- R172: the fourth step in place under STUCK_LIMIT 4 ends in Stuck. -/
theorem test_stuck :
    after { cpu [0x4C, 0x00, 0x02] with stuckCount := 3 } (fun t => (t.runState, t.stuckCount)) =
      some (.stuck 0x0200 3, 4) ∧
    after { cpu [0x4C, 0x00, 0x02] with stuckCount := 2 } (fun t => (t.runState, t.stuckCount)) =
      some (.running, 3) := by decide

/-- R163: a CPU that is not powered refuses a step. -/
theorem test_unpowered : refuses (step (powerOff (cpu [0xEA]))) .notPowered = true := by decide

/-- R223, R224: reset() loads PC from 0xFFFC low byte first. -/
theorem test_reset_vector :
    goesOn (hostReset (cpu [] [(0xFFFC, 0x34), (0xFFFD, 0x12)])) (fun t => t.pc == 0x1234 && t.p == 0x36) = true := by decide

/-- The memory of State.reset is canonical, and the core's reset is State.reset. -/
theorem test_core_reset : Sys2Proof.core.reset = State.reset ∧ State.reset.mem.wf = true := ⟨rfl, rfl⟩

/-- R197: the first instruction of the source's program. -/
theorem test_disassemble_lda :
    (match decodeOne .whole 0x0200 (cpu [0xA9, 0x05]).mem [(0x0200, "start")] with
      | .ok d => d == ⟨"a9 05", "start", "lda #$05", "", 2⟩
      | .error _ => false) = true := by decide

/-! ### Witnesses: states and operands that meet the hypotheses of the statements, clause by clause -/

theorem witness_ReadsReturnTheLastByteWritten :
    Memory.wf [(0x0300, 0x05)] = true ∧
      ([(0x0300, 0x06), (0xFFFF, 0x07)] : List (Word × Byte)).reverse.find? (fun c => c.1 == 0x0300) = some (0x0300, 0x06) ∧
      ([(0x0300, 0x06)] : List (Word × Byte)).reverse.find? (fun c => c.1 == 0x0301) = none := by decide

theorem witness_EqualReadsMakeEqualMemories :
    ∃ m m' : Memory, m ≠ [] ∧ m.wf = true ∧ m'.wf = true ∧ ∀ a : Word, m.read a.toNat = m'.read a.toNat :=
  ⟨[(0xFFFF, 0x05)], [(0xFFFF, 0x05)], by decide, by decide, by decide, fun _ => rfl⟩

theorem witness_PushAndPullWrapInPageOne : { cpu [] with sp := 0x00 }.mem.wf = true ∧ { cpu [] with sp := 0xFF }.mem.wf = true := by
  decide

theorem witness_DecodeOfEncodeIsTheInstruction :
    (Instr.ldx (.absoluteY 0xFFFF)).wf = true ∧ (Instr.beq 0x80).wf = true ∧ Instr.brk.wf = true ∧ (Instr.illegal 0xFF).wf = true := by
  decide

theorem witness_EncodeOfDecodeIsTheBytes :
    decode [0x4C, 0xFF, 0xFF, 0x00] = .ok (.jmp (.absolute 0xFFFF), [0x00]) ∧ decode [] = .error .empty ∧
      decode [0x4C, 0xFF] = .error (.truncated 0x4C) ∧ decode [0xA9] = .error (.truncated 0xA9) := ⟨rfl, rfl, rfl, rfl⟩

theorem witness_IllegalOpcodeValuesAreThe105Listed : 0x02 ∈ illegalOpcodes ∧ 0xFF ∈ illegalOpcodes ∧ 0x00 ∉ illegalOpcodes := by
  decide

theorem witness_DisassemblerAndLookupAgreeOnLength :
    (∃ d, decodeOne .whole 0xFFFF [] [] = .ok d) ∧ (Instr.jsr 0xFFFF).wf = true := ⟨⟨_, rfl⟩, by decide⟩

theorem witness_OperandHelpersReadAndStore :
    (cpu []).dataAddress (.absoluteX 0xFFFF) = some 0xFFFF ∧ (cpu []).dataAddress (.indirectYIndexed 0xFF) = some 0x0000 := by decide

theorem witness_LoadsPutTheOperandInTheRegister :
    (Instr.lda (.indirectYIndexed 0xFF)).wf = true ∧ (Instr.ldx (.zeroPageY 0xFF)).wf = true ∧
      (Instr.ldy (.absoluteX 0xFFFF)).wf = true := by decide

theorem witness_StoresWriteTheRegisterAtTheAddress :
    (Instr.sta (.absoluteY 0xFFFF)).wf = true ∧ (Instr.stx (.zeroPageY 0xFF)).wf = true ∧ (Instr.sty (.absolute 0)).wf = true ∧
      (cpu []).mem.wf = true ∧ (cpu []).dataAddress (.absolute 0xFFFF) = some 0xFFFF ∧
      (cpu []).params.cycleTable = [] ∧ ({ cpu [] with y := 0x01 }.resolve (.absoluteY 0xFFFF)).crossed = true := by decide

theorem witness_AdcBinaryAddsWithCarry : (Instr.adc (.immediate 0xFF)).wf = true ∧ (cpu []).flag .d = false := by decide

theorem witness_AdcDecimalCorrectsEachDigit :
    (Instr.adc (.absoluteX 0xFFFF)).wf = true ∧ { cpu [] with p := 0x28 }.flag .d = true := by decide

theorem witness_SbcBinarySubtractsWithBorrow : (Instr.sbc (.zeroPageX 0xFF)).wf = true ∧ (cpu []).flag .d = false := by decide

theorem witness_SbcDecimalSubtractsDigits :
    (Instr.sbc (.xIndexedIndirect 0xFF)).wf = true ∧ { cpu [] with p := 0x28 }.flag .d = true := by decide

/-- The digits 0 and 9 of the decimal clause. -/
theorem witness_OverflowFlagIsSignedOverflow : (0 < 10 ∧ 9 < 10) ∧ (16 * 9 + 9 < 256) := by decide

theorem witness_LogicOperationsCombineWithA :
    (Instr.and (.immediate 0xFF)).wf = true ∧ (Instr.ora (.absoluteY 0xFFFF)).wf = true ∧
      (Instr.eor (.indirectYIndexed 0xFF)).wf = true := by decide

theorem witness_ComparesSetFlagsOnly :
    (Instr.cmp (.absoluteX 0xFFFF)).wf = true ∧ (Instr.cpx (.immediate 0x00)).wf = true ∧ (Instr.cpy (.absolute 0xFFFF)).wf = true := by
  decide

theorem witness_BitTestsMemoryAgainstA : (Instr.bit (.zeroPage 0xFF)).wf = true ∧ (Instr.bit (.absolute 0xFFFF)).wf = true := by
  decide

theorem witness_IncAndDecChangeOneByteOfMemory :
    (Instr.inc (.absoluteX 0xFFFF)).wf = true ∧ (Instr.dec (.zeroPage 0xFF)).wf = true ∧
      (cpu []).dataAddress (.zeroPageX 0xFF) = some 0x00FF ∧
      (cpu []).params.cycleTable = [] ∧ ({ cpu [] with x := 0x01 }.resolve (.absoluteX 0xFFFF)).crossed = true := by decide

theorem witness_ShiftsAndRotatesMoveOneBit :
    (Instr.asl .accumulator).wf = true ∧ (Instr.lsr (.absolute 0xFFFF)).wf = true ∧ (Instr.rol (.zeroPage 0xFF)).wf = true ∧
      (Instr.ror (.absoluteX 0xFFFF)).wf = true ∧
      (cpu []).params.cycleTable = [] ∧ ({ cpu [] with x := 0x01 }.resolve (.absoluteX 0xFFFF)).crossed = true := by decide

theorem witness_JumpsWithoutVsrGoToTheirTarget :
    (Instr.jmp (.absolute 0xFFFF)).wf = true ∧ ((cpu []).resolve (.absolute 0xFFFF)).ea = some 0xFFFF ∧
      (Instr.jmp (.indirect 0x10FF)).wf = true ∧ ((cpu []).resolve (.indirect 0x10FF)).ea = some 0x0000 ∧
      (cpu []).vsr.lookup 0xFFFF = none := by decide

/-- A CPU with a callback at 0xFFF7 that sets A and requests exit. -/
def hooked (code : List Byte) : State :=
  registerVsr 0xFFF7 (.known [.setReg .a (.const 0x2A), .requestExit]) (cpu code)

/-- A CPU with a callback at 0xFFF7 that changes the cycle count. -/
def meddled (code : List Byte) : State := registerVsr 0xFFF7 (.known [.touchEngine .cycles]) (cpu code)

theorem witness_VsrCallbacksRunAtJumps :
    (Instr.jmp (.absolute 0xFFF7)).wf = true ∧ ((hooked []).resolve (.absolute 0xFFF7)).ea = some 0xFFF7 ∧
    (∃ cb, (hooked []).vsr.lookup 0xFFF7 = some cb ∧
      (∃ u, invokeCallback cb { hooked [] with pc := 0xFFF7 } = .next u) ∧
      ∃ u, invokeCallback cb (afterJsr 0xFFF7 (hooked [])) = .next u) ∧
    VsrAct.touchEngine .cycles ∈ [VsrAct.requestExit, .touchEngine .cycles] :=
  ⟨by decide, by decide, ⟨_, rfl, ⟨_, rfl⟩, ⟨_, rfl⟩⟩, by decide⟩

/-- A powered, running CPU without interrupts runs its instruction. -/
theorem runs (code : List Byte) (data : List (Word × Byte)) : runsInstr (cpu code data) := ⟨rfl, rfl, rfl, fun h => nomatch h.1⟩

theorem witness_IllegalOpcodesEndTheRun : runsInstr (cpu [0xFF]) ∧ (cpu [0xFF]).read (cpu [0xFF]).pc ∈ illegalOpcodes :=
  ⟨runs _ _, by decide⟩

/-- A branch taken to another page, one taken on its page, one not taken, a read with a page cross, a callback. -/
theorem witness_CyclesFollowTheClassSummary :
    (Instr.beq 0x80).wf = true ∧ (cpu []).params.cycleTable = [] ∧
      goesOn (exec (.beq 0x80) { cpu [] with p := 0x22 }) (fun t => t.cycles == 4) = true ∧
      goesOn (exec (.beq 0x7F) { cpu [] with p := 0x22 }) (fun t => t.cycles == 3) = true ∧
      goesOn (exec (.beq 0x7F) (cpu [])) (fun t => t.cycles == 2) = true ∧
      goesOn (exec (.lda (.absoluteX 0x02FF)) { cpu [] with x := 0x01 }) (fun t => t.cycles == 5) = true ∧
      goesOn (exec (.lda (.absoluteX 0x02FE)) { cpu [] with x := 0x01 }) (fun t => t.cycles == 4) = true ∧
      goesOn (exec (.jsr 0xFFF7) (hooked [])) (fun t => t.cycles == 6) = true := by decide

theorem witness_StepRunsTheDecodedInstruction :
    runsInstr (cpu [0xA9, 0x05]) ∧
      decode [(cpu [0xA9, 0x05]).read 0x0200, (cpu [0xA9, 0x05]).read 0x0201, (cpu [0xA9, 0x05]).read 0x0202] =
        .ok (.lda (.immediate 0x05), [0x00]) ∧
      goesOn (exec (.lda (.immediate 0x05)) { cpu [0xA9, 0x05] with exitReq := false }) = true ∧
      runsInstr (meddled [0x20, 0xF7, 0xFF]) ∧
      refuses (exec (.jsr 0xFFF7) { meddled [0x20, 0xF7, 0xFF] with exitReq := false }) (.callbackTouchesEngine .cycles) = true :=
  ⟨runs _ _, rfl, by decide, ⟨rfl, rfl, rfl, by decide⟩, by decide⟩

theorem witness_InterruptEntryPushesPcAndStatus :
    (cpu []).powered = true ∧ (cpu []).runState = .running ∧ (nmi (cpu [])).nmiLatch = true ∧
      (irq true (cpu [])).nmiLatch = false ∧ (irq true (cpu [])).irqLine = true ∧ (irq true (cpu [])).flag .i = false := by decide

theorem witness_InterruptPriorityIsNmiIrqInstruction :
    goesOn (step (nmi (irq true (cpu [])))) = true ∧ goesOn (step (irq true (cpu []))) = true ∧
      goesOn (step { irq true (cpu []) with p := 0x24 }) = true ∧ goesOn (step (cpu [])) = true := by decide

/-- Each terminal run state, an unpowered CPU, and a powered one. -/
theorem witness_TerminalAndUnpoweredCpusDoNotStep :
    { cpu [] with runState := .stuck 0x0200 12 }.powered = true ∧ RunState.stuck 0x0200 12 ≠ .running ∧
      RunState.illegalOpcode 0x0200 0x02 ≠ .running ∧ RunState.exited 0x00 6 ⟨1, 151⟩ ≠ .running ∧
      (powerOff (cpu [])).powered = false := by decide

/-- The last step before STUCK_LIMIT, the one that reaches it, and a step that moves. -/
theorem witness_StuckAfterStuckLimitStepsInPlace :
    goesOn (step { cpu [0x4C, 0x00, 0x02] with stuckCount := 2 }) (fun t => t.runState == .running && t.stuckCount == 3) = true ∧
      goesOn (step { cpu [0x4C, 0x00, 0x02] with stuckCount := 3 }) (fun t => t.runState == .stuck 0x0200 3) = true ∧
      goesOn (step { cpu [0xEA] with stuckCount := 3 }) (fun t => t.runState == .running && t.stuckCount == 0) = true := by decide

theorem witness_ExitedIsACallbackRequest :
    runsInstr (hooked [0x20, 0xF7, 0xFF]) ∧
      goesOn (exec (hooked [0x20, 0xF7, 0xFF]).fetch (hooked [0x20, 0xF7, 0xFF]).clearExit)
        (fun u => u.exitReq && u.runState == .running) = true ∧
      goesOn (step (hooked [0x20, 0xF7, 0xFF])) (fun t => t.runState == .exited 0x2A 6 ⟨1, 151⟩) = true :=
  ⟨⟨rfl, rfl, rfl, by decide⟩, by decide, by decide⟩

theorem witness_StepsNeverFaultAndSeldomRefuse :
    refuses (step (powerOff (cpu []))) .notPowered = true ∧
      refuses (step (meddled [0x20, 0xF7, 0xFF])) (.callbackTouchesEngine .cycles) = true ∧
      refuses (step (meddled [0x4C, 0xF7, 0xFF])) (.callbackTouchesEngine .cycles) = true := by decide

theorem witness_EveryStepOfAPoweredCpuCompletes : (hooked []).powered = true ∧ (hooked []).callbacksKeepOut = true := by decide

/-- State.reset and a CPU with a callback meet the invariant. -/
theorem reset_inv : State.reset.Inv := ⟨by decide, by decide, by decide, by decide, by decide, by decide, by decide⟩

theorem hooked_inv : (hooked [0x20, 0xF7, 0xFF]).Inv := ⟨by decide, by decide, by decide, by decide, by decide, by decide, by decide⟩

theorem witness_StepKeepsTheInvariant :
    State.reset.Inv ∧ goesOn (step State.reset) = true ∧ (hooked [0x20, 0xF7, 0xFF]).Inv ∧
      goesOn (step (hooked [0x20, 0xF7, 0xFF])) = true := ⟨reset_inv, by decide, hooked_inv, by decide⟩

theorem witness_ResetMeetsTheInvariant : Memory.wf [(0x0000, 0x01), (0xFFFF, 0xFF)] = true := by decide

theorem witness_HostCallsKeepTheInvariant : State.reset.Inv ∧ goesOn (hostReset State.reset) = true := ⟨reset_inv, by decide⟩

/-- A step of each of the four ways: terminal, NMI, IRQ, instruction. -/
theorem witness_StepNeverWritesRegistryOrLine :
    goesOn (step { nmi (cpu []) with runState := .stuck 0x0200 12 }) (fun t => t.nmiLatch) = true ∧
      goesOn (step (nmi (cpu []))) = true ∧ goesOn (step (irq true (cpu []))) = true ∧ goesOn (step (cpu [0xEA])) = true := by decide

/-- An instruction whose target has no callback, and one that jumps nowhere. -/
theorem noCallback_jsr : noCallback (.jsr 0x1234) (hooked []) := by
  intro w h
  cases h
  decide

theorem noCallback_plp : noCallback .plp (cpu []) := by
  intro w h
  cases h

theorem witness_FlagsAreWrittenOnlyByTheirWriters :
    noCallback .plp (cpu []) ∧
      goesOn (exec .plp { cpu [] [(0x01FE, 0xFF)] with p := 0x00 }) (fun t => t.p == 0xFF) = true := ⟨noCallback_plp, by decide⟩

theorem witness_RegistersAreWrittenOnlyByTheirWriters :
    noCallback (.jsr 0x1234) (hooked []) ∧
      goesOn (exec (.jsr 0x1234) (hooked [])) (fun t => t.pc == 0x1234 && t.sp == 0xFB) = true := ⟨noCallback_jsr, by decide⟩

theorem witness_MemoryChangesOnlyWhereStored :
    noCallback (.jsr 0x1234) (hooked []) ∧ goesOn (exec (.jsr 0x1234) (hooked [])) = true ∧
      storedTo (.jsr 0x1234) (hooked []) = [0x01FD, 0x01FC] ∧ (0x01FE : Word) ∉ storedTo (.jsr 0x1234) (hooked []) ∧
      storedTo (.sta (.absolute 0xFFFF)) (hooked []) = [0xFFFF] ∧ storedTo (.asl .accumulator) (hooked []) = [] :=
  ⟨noCallback_jsr, by decide, by decide, by decide, by decide, by decide⟩

theorem witness_CoverageIsASetOfLegalOpcodes :
    coverageWf [0x00, 0xFE] = true ∧ isIllegal 0xEA = false ∧ State.reset.Inv ∧ goesOn (step State.reset) = true :=
  ⟨by decide, by decide, reset_inv, by decide⟩

theorem witness_MemoryAfterAStepIsItsAccessSequence :
    (cpu [0x8D, 0xFF, 0xFF]).stepAccesses = [.read 0x0200, .read 0x0201, .read 0x0202, .write 0xFFFF 0x00] ∧
      (∀ w, Access.callback w ∉ (cpu [0x8D, 0xFF, 0xFF]).stepAccesses) ∧ goesOn (step (cpu [0x8D, 0xFF, 0xFF])) = true := by
  have h : (cpu [0x8D, 0xFF, 0xFF]).stepAccesses = [.read 0x0200, .read 0x0201, .read 0x0202, .write 0xFFFF 0x00] := by decide
  refine ⟨h, fun w => ?_, by decide⟩
  rw [h]
  simp

theorem witness_ReturnsUndoEntries : { cpu [] with sp := 0x00 }.mem.wf = true ∧ (hooked []).vsr.lookup 0x1234 = none := by decide

theorem witness_PowerAndResetGiveTheirValues : (cpu []).powered = true := by decide

theorem witness_HostCallsChangeOnlyTheirState : vsrWf (hooked []).vsr = true ∧ (hooked []).vsr ≠ [] := by decide

/-- A CPU whose NOP costs nothing: its CYCLE_TABLE has one row. -/
def freeNop (prog : List Byte) : State := { cpu prog with params := { (cpu prog).params with cycleTable := [(0xEA, ⟨0, .none⟩)] } }

/-- Two free instructions do not use up run(1): R183's loop goes on to the status after them. -/
theorem test_run_goesOnOverFreeInstructions :
    (∃ t, RunGives 1 (freeNop [0xEA, 0xEA, 0x02]) (.returned (.illegalOpcode 0x0202 0x02) t) ∧ t.pc = 0x0203 ∧ t.cycles = 0) ∧
      ∃ t, RunGives 1 (freeNop [0xEA, 0xEA, 0x8A]) (.returned .running t) ∧ t.pc = 0x0203 ∧ t.cycles = 2 :=
  ⟨⟨_, ⟨3, rfl⟩, by decide, by decide⟩, ⟨_, ⟨3, rfl⟩, by decide, by decide⟩⟩

/-- Vector E14: run(5) over NOPs takes three steps and returns Continue; run(0) takes one. -/
theorem test_run_vectorE14 :
    (∃ t, RunGives 5 (cpu [0xEA, 0xEA, 0xEA, 0xEA]) (.returned .running t) ∧ t.pc = 0x0203 ∧ t.cycles = 6) ∧
      ∃ t, RunGives 0 (cpu [0xEA, 0xEA]) (.returned .running t) ∧ t.pc = 0x0201 ∧ t.cycles = 2 :=
  ⟨⟨_, ⟨3, rfl⟩, by decide, by decide⟩, ⟨_, ⟨1, rfl⟩, by decide, by decide⟩⟩

/-- A step that goes on, one that reaches a terminal status, one that is refused, a run that ends with its cycles exactly
and one that overshoots, and the NMOS table. -/
theorem witness_RunStopsAtAStatusOrAfterItsCycles :
    (cpu []).params.cycleTable = [] ∧
      goesOn (step (cpu [0xEA])) (fun t => t.runState == .running && t.cycles == 2) = true ∧
      goesOn (step (cpu [0x02])) (fun t => t.runState == .illegalOpcode 0x0200 0x02) = true ∧
      step (powerOff (cpu [])) = .refused .notPowered ∧
      (∃ t, RunGives 2 (cpu [0xEA, 0xEA]) (.returned .running t)) ∧ ∃ t, RunGives 3 (cpu [0xEA, 0xEA]) (.returned .running t) :=
  ⟨by decide, by decide, by decide, rfl, ⟨_, 1, rfl⟩, ⟨_, 2, rfl⟩⟩

/-- An instruction that ends at 0xFFFF, one that would pass it, one that would pass its segment, one below it. -/
theorem witness_DecodeOneStaysInItsSegment :
    (∀ k, k < (lookup (Memory.read [] 0xFFFF)).mode.length →
      Segment.whole.lo ≤ 0xFFFF + k ∧ 0xFFFF + k ≤ Segment.whole.hi ∧ 0xFFFF + k ≤ 0xFFFF) ∧
    ¬(∀ k, k < (lookup (Memory.read [(0xFFFF, 0xA9)] 0xFFFF)).mode.length →
      Segment.whole.lo ≤ 0xFFFF + k ∧ 0xFFFF + k ≤ Segment.whole.hi ∧ 0xFFFF + k ≤ 0xFFFF) ∧
    ¬(∀ k, k < (lookup (Memory.read [(0x0200, 0xA9)] 0x0200)).mode.length →
      0x0200 ≤ 0x0200 + k ∧ 0x0200 + k ≤ 0x0200 ∧ 0x0200 + k ≤ 0xFFFF) ∧
    (lookup (Memory.read [(0x0200, 0xF0)] 0x0200)).mode = .relative ∧ (Memory.read [(0x0200, 0xFF)] 0x0200) ∈ illegalOpcodes := by
  decide

theorem witness_RegionDecodesInstructionByInstruction :
    (∃ d, decodeOne .whole 0x0200 (cpu [0xA9, 0x05]).mem [] = .ok d) ∧
      (∃ e, decodeOne ⟨0x0200, 0x0200⟩ 0x0200 (cpu [0xA9, 0x05]).mem [] = .error e) := ⟨⟨_, rfl⟩, ⟨_, rfl⟩⟩

end Sys2Proof.Tests
end

/-! # Proofs of the statements on the state (10_state.md): the invariant, the ALU's V and decimal results, and which
instruction writes which part of the register file. -/

namespace Sys2Proof.Machine

/-! ## The coverage set (10_state.md R35, 48_execution_engine.md R170) -/

/-- The opcode map calls no opcode of a mnemonic other than `illegal` illegal (R66, R67). -/
theorem isIllegal_of_opcode {i : Instr} {op : Byte} (hm : i.mnemonic ≠ .illegal) (h : i.opcode = some op) :
    isIllegal op = false := by
  have hop : i.opcode = opcodeOf i.mnemonic i.mode := by
    cases i with
    | illegal _ => exact absurd rfl hm
    | _ => rfl
  simpa [isIllegal, lookup_opcodeOf (hop ▸ h)] using hm

/-- Marking is insertion into a set. -/
theorem mem_mark {b op : Byte} {l : List Byte} : b ∈ mark op l ↔ b = op ∨ b ∈ l := by
  induction l with
  | nil => simp [mark]
  | cons c l ih =>
    unfold mark
    split
    · simp
    · split
      · next hc => subst hc; simp
      · simp only [List.mem_cons, ih]; tauto

theorem mark_pairwise {op : Byte} {l : List Byte} (h : l.Pairwise fun b c => b.toNat < c.toNat) :
    (mark op l).Pairwise fun b c => b.toNat < c.toNat := by
  induction l with
  | nil => simp [mark]
  | cons c l ih =>
    obtain ⟨hc, hl⟩ := List.pairwise_cons.mp h
    unfold mark
    split
    · next hlt =>
      refine List.pairwise_cons.mpr ⟨fun b hb => ?_, h⟩
      obtain rfl | hb := List.mem_cons.mp hb
      · exact hlt
      · exact hlt.trans (hc b hb)
    · split
      · exact h
      · next hlt hne =>
        refine List.pairwise_cons.mpr ⟨fun b hb => ?_, ih hl⟩
        obtain rfl | hb := mem_mark.mp hb
        · have : b.toNat ≠ c.toNat := fun e => hne (BitVec.eq_of_toNat_eq e)
          omega
        · exact hc b hb

theorem coverageWf_iff {l : List Byte} :
    coverageWf l = true ↔ (l.Pairwise fun b c => b.toNat < c.toNat) ∧ ∀ b ∈ l, isIllegal b = false := by
  simp [coverageWf]

/-- Marking a legal opcode keeps the canonical form of the coverage set. -/
theorem coverageWf_mark {op : Byte} {l : List Byte} (h : coverageWf l = true) (hop : isIllegal op = false) :
    coverageWf (mark op l) = true := by
  obtain ⟨hl, hlegal⟩ := coverageWf_iff.mp h
  refine coverageWf_iff.mpr ⟨mark_pairwise hl, fun b hb => ?_⟩
  obtain rfl | hb := mem_mark.mp hb
  · exact hop
  · exact hlegal b hb

/-! ## The invariant through the end of a step -/

theorem nextStuckCount_le (w : Word) (s : State) : s.nextStuckCount w ≤ s.params.stuckLimit := by
  unfold State.nextStuckCount
  split
  · exact Nat.min_le_right _ _
  · exact Nat.zero_le _

/-- A step ends Running only below the stuck limit (R172). -/
theorem nextStuckCount_lt_of_endStatus {w : Word} {s : State} (h : s.endStatus w = .running) :
    s.nextStuckCount w < s.params.stuckLimit := by
  unfold State.endStatus at h
  split at h
  · cases h
  · split at h
    · cases h
    · next hlt => exact Nat.not_le.mp hlt

/-- The end of a step that is still Running establishes what the invariant says of the stuck counter, the run state and
the exit request; memory, P, coverage and registry are as the instruction or the interrupt service left them. -/
theorem endStep_inv {u : State} (w : Word) (hr : u.runState = .running) (hmem : u.mem.wf = true)
    (hbit5 : u.p.getLsbD 5 = true) (hcov : coverageWf u.coverage = true) (hvsr : vsrWf u.vsr = true) :
    (u.endStep w).Inv := by
  rw [endStep_running w hr]
  exact ⟨hmem, hbit5, hcov, hvsr, nextStuckCount_le w u, fun h _ => nextStuckCount_lt_of_endStatus h, rfl⟩

/-- Clearing the exit request at the start of a step keeps the invariant. -/
theorem clearExit_inv {s : State} (h : s.Inv) : s.clearExit.Inv :=
  ⟨h.mem, h.bit5, h.coverage, h.vsr, h.stuck, h.running, rfl⟩

theorem serviceNmi_endStep_inv {s : State} (w : Word) (h : s.Inv) (hr : s.runState = .running) :
    (s.serviceNmi.endStep w).Inv :=
  endStep_inv w (by simpa using hr) (serviceNmi_wf s h.mem) (by rw [serviceNmi_p, putFlag_bit5, h.bit5])
    (by simpa using h.coverage) (by simpa using h.vsr)

theorem serviceIrq_endStep_inv {s : State} (w : Word) (h : s.Inv) (hr : s.runState = .running) :
    (s.serviceIrq.endStep w).Inv :=
  endStep_inv w (by simpa using hr) (serviceIrq_wf s h.mem) (by rw [serviceIrq_p, putFlag_bit5, h.bit5])
    (by simpa using h.coverage) (by simpa using h.vsr)

/-- An executed instruction, with the callback it may invoke, and the end of its step keep the invariant. An illegal
opcode ends the step in its own terminal state (R171); every other instruction books a legal opcode (R170). -/
theorem exec_endStep_inv {i : Instr} {s u : State} (w : Word) (h : s.Inv) (hr : s.runState = .running)
    (hu : exec i s = .next u) : (u.endStep w).Inv := by
  obtain ⟨op, hop, ⟨hm, hb⟩ | ⟨-, rfl⟩⟩ := exec_next hu
  · exact endStep_inv w (hb.runState.trans hr) (hb.untouched.mem h.mem) (hb.untouched.bit5 h.bit5)
      (hb.coverage ▸ coverageWf_mark h.coverage (isIllegal_of_opcode hm hop)) (hb.untouched.vsr ▸ h.vsr)
  · rw [endStep_terminal w RunState.noConfusion]
    exact ⟨h.mem, h.bit5, h.coverage, h.vsr, h.stuck, RunState.noConfusion, h.exitReq⟩

/-- Settles O45: each of the four ways of a step (R162) keeps the invariant. -/
theorem stepKeepsTheInvariant : Obligations.StepKeepsTheInvariant := by
  intro s t h hst
  obtain ⟨-, ⟨-, rfl⟩ | ⟨hr, -, rfl⟩ | ⟨hr, -, rfl⟩ | ⟨hr, -, -, u, hu, rfl⟩⟩ := step_next hst
  · exact h
  · exact serviceNmi_endStep_inv _ (clearExit_inv h) hr
  · exact serviceIrq_endStep_inv _ (clearExit_inv h) hr
  · exact exec_endStep_inv _ (clearExit_inv h) hr hu

/-! ## Power-on and reset (10_state.md R40) -/

theorem construct_inv {m : Memory} (params : Params) (h : m.wf = true) : (State.construct m params).Inv :=
  ⟨h, (by decide : (0x36 : Byte).getLsbD 5 = true), rfl, rfl, Nat.zero_le _, fun _ => id, rfl⟩

/-- Settles O46: State.reset is a constructed CPU over the empty memory, after one reset(). -/
theorem resetMeetsTheInvariant : Obligations.ResetMeetsTheInvariant :=
  ⟨construct_inv .default rfl, rfl, fun _ params h => construct_inv params h⟩

/-- `hi:lo` as a number (00_scope.md R7). -/
theorem concat_eq_ofNat (hi lo : Byte) : concat hi lo = BitVec.ofNat 16 (lo.toNat + 256 * hi.toNat) := by
  apply BitVec.eq_of_toNat_eq
  have := Nat.shiftLeft_add_eq_or_of_lt lo.isLt hi.toNat
  simp only [concat, BitVec.toNat_append, BitVec.toNat_ofNat, ← this]
  omega

theorem hostReset_powered {s : State} (h : s.powered = true) :
    hostReset s = .next { s with
      a := 0x00, x := 0x00, y := 0x00, sp := 0xFD, p := 0x36, nmiLatch := false, stuckCount := 0,
      runState := .running, pc := s.read16 resetVector } := by
  unfold hostReset
  rw [if_pos h]
  rfl

/-- Settles O55: both calls are one record update each; the RESET vector is read low byte first. -/
theorem powerAndResetGiveTheirValues : Obligations.PowerAndResetGiveTheirValues := by
  intro s
  refine ⟨rfl, fun h => ?_, fun _ _ => rfl⟩
  rw [hostReset_powered h, State.read16, concat_eq_ofNat]
  rfl

/-! ## V is signed overflow, and decimal mode is exact on valid BCD (R108 to R111) -/

/-- Bit 7 alone decides the masked test of R108, R109 and R111. -/
theorem and_sign_ne_zero (x : Byte) : (x &&& 0x80 != 0) = x.msb := by
  revert x; decide

/-- The overflow test says that the operands agree in sign and the result does not. -/
theorem signedOverflow_eq (a v t : Byte) : signedOverflow a v t = ((a.msb == v.msb) && (a.msb != t.msb)) := by
  rw [signedOverflow, and_sign_ne_zero]
  simp only [BitVec.msb_and, BitVec.msb_not, BitVec.msb_xor]
  cases a.msb <;> cases v.msb <;> cases t.msb <;> rfl

/-- The overflow test on the byte sum is set exactly when the signed sum leaves -128..127. -/
theorem signedOverflow_add_iff (a v : Byte) (c : Bool) :
    signedOverflow a v (BitVec.ofNat 8 (a.toNat + v.toNat + c.toNat)) = true ↔
      ¬(-128 ≤ a.toInt + v.toInt + c.toNat ∧ a.toInt + v.toInt + c.toNat ≤ 127) := by
  have hc : c.toNat ≤ 1 := c.toNat_le
  have ha := a.isLt
  have hv := v.isLt
  rw [signedOverflow_eq, BitVec.toInt_eq_toNat_cond, BitVec.toInt_eq_toNat_cond]
  simp only [Bool.and_eq_true, beq_iff_eq, bne_iff_ne, BitVec.msb_eq_decide, BitVec.toNat_ofNat, ne_eq, decide_eq_decide]
  split <;> split <;> omega

/-- The signed value of a complement. -/
theorem toInt_not_byte (v : Byte) : (~~~v).toInt = -v.toInt - 1 := by
  revert v; decide

/-- The byte whose two hexadecimal digits are `h` and `l`: a valid BCD operand where both are below 10. -/
def bcd (h l : Nat) : Byte := BitVec.ofNat 8 (16 * h + l)

theorem bcd_toNat {h l : Nat} (hh : h < 10) (hl : l < 10) : (bcd h l).toNat = 16 * h + l := by
  rw [bcd, BitVec.toNat_ofNat]
  omega

theorem bcd_lowDigit {h l : Nat} (hh : h < 10) (hl : l < 10) : (bcd h l).toNat % 16 = l := by
  rw [bcd_toNat hh hl]
  omega

theorem bcd_highDigit {h l : Nat} (hh : h < 10) (hl : l < 10) : (bcd h l).toNat / 16 = h := by
  rw [bcd_toNat hh hl]
  omega

/-- A number of at most three decimal digits shows its last two as the hexadecimal digits of a BCD byte. -/
theorem bcd_of_decimal {n k h l : Nat} (hn : n = 100 * k + 10 * h + l) (hh : h < 10) (hl : l < 10) :
    BitVec.ofNat 8 (16 * (n % 100 / 10) + n % 10) = bcd h l := by
  have hlow : n % 10 = l := by omega
  have hhigh : n % 100 / 10 = h := by omega
  rw [hlow, hhigh, bcd]

section
variable {ah al vh vl h l : Nat} {c : Bool} (hah : ah < 10) (hal : al < 10) (hvh : vh < 10) (hvl : vl < 10)
  (hh : h < 10) (hl : l < 10)
include hah hal hvh hvl hh hl

/-- `AdcDecimal` on valid BCD is schoolbook addition: digits `h`, `l` with carries `k₁` and `k₀` out of each column. -/
theorem adcDecimal_bcd {k₀ k₁ : Nat} (hlow : al + vl + c.toNat = 10 * k₀ + l) (hhigh : ah + vh + k₀ = 10 * k₁ + h) :
    (adcDecimal (bcd ah al) (bcd vh vl) c).value = bcd h l ∧
      (adcDecimal (bcd ah al) (bcd vh vl) c).c = decide (1 ≤ k₁) := by
  have hc : c.toNat ≤ 1 := c.toNat_le
  have hnibble : adcLowNibble (bcd ah al) (bcd vh vl) c = 16 * k₀ + l := by
    rw [adcLowNibble, bcd_lowDigit hah hal, bcd_lowDigit hvh hvl]
    split <;> omega
  simp only [adcDecimal, hnibble, bcd_highDigit hah hal, bcd_highDigit hvh hvl]
  have hcarry : k₁ = 0 ∨ k₁ = 1 := by omega
  refine ⟨BitVec.eq_of_toNat_eq ?_, decide_eq_decide.mpr ?_⟩
  · rw [bcd_toNat hh hl, BitVec.toNat_ofNat]
    split <;> omega
  · split <;> omega

/-- `SbcDecimal` on valid BCD is schoolbook subtraction: digits `h`, `l` with borrows `k₁` and `k₀` into each column. -/
theorem sbcDecimal_bcd {k₀ k₁ : Nat} (hlow : al + c.toNat + 10 * k₀ = vl + 1 + l) (hhigh : ah + 10 * k₁ = vh + k₀ + h) :
    (sbcDecimal (bcd ah al) (bcd vh vl) c).value = bcd h l ∧
      (sbcDecimal (bcd ah al) (bcd vh vl) c).c = decide (k₁ = 0) := by
  have hc : c.toNat ≤ 1 := c.toNat_le
  have hnibble : sbcLowNibble (bcd ah al) (bcd vh vl) c = (l : Int) - 16 * k₀ := by
    rw [sbcLowNibble, bcd_lowDigit hah hal, bcd_lowDigit hvh hvl]
    split <;> omega
  have hborrow : k₁ = 0 ∨ k₁ = 1 := by omega
  constructor
  · simp only [sbcDecimal, sbcDecimalValue, hnibble, bcd_highDigit hah hal, bcd_highDigit hvh hvl]
    apply BitVec.eq_of_toNat_eq
    simp only [bcd_toNat hh hl, BitVec.toNat_ofInt, Nat.reducePow, Nat.cast_ofNat]
    split <;> omega
  · simp only [sbcDecimal, sbcBinary, adcBinary, BitVec.toNat_not, bcd_toNat hah hal, bcd_toNat hvh hvl, decide_eq_decide]
    omega

end

/-- Settles O21: V by the signs of operands and result, the decimal digits by schoolbook addition and subtraction. -/
theorem overflowFlagIsSignedOverflow : Obligations.OverflowFlagIsSignedOverflow := by
  refine ⟨fun a v c => ⟨signedOverflow_add_iff a v c, ?_⟩, fun ah al vh vl c hah hal hvh hvl => ?_⟩
  · rw [sbcBinary, adcBinary]
    simp only [signedOverflow_add_iff, toInt_not_byte]
    omega
  · have hc : c.toNat ≤ 1 := c.toNat_le
    obtain ⟨l, k₀, hl, hlow⟩ : ∃ l k₀, l < 10 ∧ al + vl + c.toNat = 10 * k₀ + l :=
      ⟨_, _, Nat.mod_lt _ (by decide), (Nat.div_add_mod _ 10).symm⟩
    obtain ⟨h, k₁, hh, hhigh⟩ : ∃ h k₁, h < 10 ∧ ah + vh + k₀ = 10 * k₁ + h :=
      ⟨_, _, Nat.mod_lt _ (by decide), (Nat.div_add_mod _ 10).symm⟩
    obtain ⟨l', b₀, hl', hlow'⟩ : ∃ l b₀, l < 10 ∧ al + c.toNat + 10 * b₀ = vl + 1 + l :=
      ⟨(al + c.toNat + 9 - vl) % 10, if al + c.toNat < vl + 1 then 1 else 0, by omega, by split <;> omega⟩
    obtain ⟨h', b₁, hh', hhigh'⟩ : ∃ h b₁, h < 10 ∧ ah + 10 * b₁ = vh + b₀ + h :=
      ⟨(ah + 10 - vh - b₀) % 10, if ah < vh + b₀ then 1 else 0, by omega, by split <;> omega⟩
    obtain ⟨hadd, haddC⟩ := adcDecimal_bcd hah hal hvh hvl hh hl hlow hhigh
    obtain ⟨hsub, hsubC⟩ := sbcDecimal_bcd hah hal hvh hvl hh' hl' hlow' hhigh'
    intro a v sum diff
    have hsum : sum = 100 * k₁ + 10 * h + l := by omega
    have hdiff : diff = 100 * (1 - b₁) + 10 * h' + l' := by omega
    rw [bcd_of_decimal hsum hh hl, bcd_of_decimal hdiff hh' hl']
    exact ⟨hadd, haddC.trans (decide_eq_decide.mpr (by omega)), hsub, hsubC.trans (decide_eq_decide.mpr (by omega))⟩

/-! ## What an instruction may write (10_state.md R18 to R22, R27) -/

/-- The parts of the register file that R18 to R24 and R27 list the writers of. -/
inductive Part where
  | a | x | y | s | pc | flag (f : Flag) | bit5

/-- P as a whole, bit 5 included (R24). -/
def wholeP : List Part := [.flag .n, .flag .v, .flag .b, .flag .d, .flag .i, .flag .z, .flag .c, .bit5]

/-- What each instruction may write, in the terms of its own rule. -/
def writes : Instr → List Part
  | .lda _ | .and _ | .ora _ | .eor _ | .txa | .tya => [.a, .flag .n, .flag .z]
  | .adc _ | .sbc _ => [.a, .flag .n, .flag .v, .flag .z, .flag .c]
  | .ldx _ | .tax | .tsx | .inx | .dex => [.x, .flag .n, .flag .z]
  | .ldy _ | .tay | .iny | .dey => [.y, .flag .n, .flag .z]
  | .cmp _ | .cpx _ | .cpy _ => [.flag .n, .flag .z, .flag .c]
  | .bit _ => [.flag .n, .flag .v, .flag .z]
  | .inc _ | .dec _ => [.flag .n, .flag .z]
  | .asl o | .lsr o | .rol o | .ror o =>
    (if o = .accumulator then [.a] else []) ++ [.flag .n, .flag .z, .flag .c]
  | .clc | .sec => [.flag .c]
  | .cld | .sed => [.flag .d]
  | .cli | .sei => [.flag .i]
  | .clv => [.flag .v]
  | .txs | .pha | .php => [.s]
  | .pla => [.s, .a, .flag .n, .flag .z]
  | .plp => .s :: wholeP
  | .rti => .s :: .pc :: wholeP
  | .brk => [.s, .pc, .flag .b, .flag .i]
  | .jsr _ | .rts => [.s, .pc]
  | .jmp _ | .bcc _ | .bcs _ | .beq _ | .bmi _ | .bne _ | .bpl _ | .bvc _ | .bvs _ => [.pc]
  | .nop | .sta _ | .stx _ | .sty _ | .illegal _ => []

/-- The writers of each part, as R18 to R22, R24 and R27 list them. -/
def writers : Part → List Mnemonic
  | .a => [.lda, .adc, .sbc, .and, .ora, .eor, .txa, .tya, .pla, .asl, .lsr, .rol, .ror]
  | .x => [.ldx, .tax, .tsx, .inx, .dex]
  | .y => [.ldy, .tay, .iny, .dey]
  | .s => [.txs, .pha, .php, .pla, .plp, .jsr, .rts, .rti, .brk]
  | .pc => [.bcc, .bcs, .beq, .bmi, .bne, .bpl, .bvc, .bvs, .jmp, .jsr, .rts, .rti, .brk]
  | .flag .n | .flag .z =>
    [.lda, .ldx, .ldy, .tax, .tay, .txa, .tya, .tsx, .pla, .adc, .sbc, .and, .ora, .eor,
      .cmp, .cpx, .cpy, .bit, .inc, .dec, .inx, .iny, .dex, .dey, .asl, .lsr, .rol, .ror, .plp, .rti]
  | .flag .v => [.adc, .sbc, .bit, .clv, .plp, .rti]
  | .flag .b => [.brk, .plp, .rti]
  | .flag .d => [.cld, .sed, .plp, .rti]
  | .flag .i => [.cli, .sei, .brk, .plp, .rti]
  | .flag .c => [.adc, .sbc, .cmp, .cpx, .cpy, .asl, .lsr, .rol, .ror, .clc, .sec, .plp, .rti]
  | .bit5 => [.plp, .rti]

/-- The two tables agree: what an instruction may write lists its mnemonic among its writers. -/
theorem mem_writers (i : Instr) : ∀ part ∈ writes i, i.mnemonic ∈ writers part := by
  cases i with
  | asl o | lsr o | rol o | ror o =>
    simp only [writes]
    split <;> simp [writers, Instr.mnemonic]
  | _ => simp [writes, wholeP, writers, Instr.mnemonic]

/-- A shift or rotate on memory leaves A to others (R130 to R133). -/
theorem a_notMem_writes_of_shift {i : Instr} (h : i.mnemonic ∈ ([.asl, .lsr, .rol, .ror] : List Mnemonic))
    (hm : i.mode ≠ .accumulator) : .a ∉ writes i := by
  cases i with
  | asl o | lsr o | rol o | ror o =>
    have ho : o ≠ .accumulator := by rintro rfl; exact hm rfl
    simp [writes, ho]
  | _ => simp [Instr.mnemonic] at h

/-! ### Status bytes -/

/-- The status byte `q` is `p` but for the flags, and bit 5, that `w` lists. -/
structure KeepsP (w : List Part) (p q : Byte) : Prop where
  flag : ∀ f, .flag f ∉ w → getFlag f q = getFlag f p
  bit5 : .bit5 ∉ w → q.getLsbD 5 = p.getLsbD 5

theorem getFlag_putFlag_ne {f g : Flag} (h : g ≠ f) (on : Bool) (p : Byte) : getFlag g (putFlag f on p) = getFlag g p := by
  revert on p h
  cases f <;> cases g <;> simp [getFlag, putFlag, Flag.mask, Flag.bit]

section
variable {w : List Part} {p q r : Byte}

theorem KeepsP.refl : KeepsP w p p := ⟨fun _ _ => rfl, fun _ => rfl⟩

theorem KeepsP.trans (h : KeepsP w p q) (k : KeepsP w q r) : KeepsP w p r :=
  ⟨fun f hf => (k.flag f hf).trans (h.flag f hf), fun h5 => (k.bit5 h5).trans (h.bit5 h5)⟩

theorem keepsP_putFlag {f : Flag} (h : .flag f ∈ w) (on : Bool) : KeepsP w p (putFlag f on p) :=
  ⟨fun _ hg => getFlag_putFlag_ne (by rintro rfl; exact hg h) on p, fun _ => putFlag_bit5 f on p⟩

theorem keepsP_wholeP (h : wholeP ⊆ w) : KeepsP w p q :=
  ⟨fun f hf => absurd (h (by cases f <;> simp [wholeP])) hf, fun h5 => absurd (h (by simp [wholeP])) h5⟩

section
variable (hn : .flag .n ∈ w) (hz : .flag .z ∈ w)
include hn hz

theorem keepsP_putNZ (v : Byte) : KeepsP w p (putNZ v p) := (keepsP_putFlag hn _).trans (keepsP_putFlag hz _)

variable (hc : .flag .c ∈ w)
include hc

theorem keepsP_putCompare (reg v : Byte) : KeepsP w p (putCompare reg v p) :=
  (keepsP_putFlag hc _).trans (keepsP_putNZ hn hz _)

theorem keepsP_shifted (out : Bool) (v : Byte) : KeepsP w p (shifted out v p).2 :=
  (keepsP_putFlag hc _).trans (keepsP_putNZ hn hz _)

end

theorem keepsP_putBitTest (hn : .flag .n ∈ w) (hv : .flag .v ∈ w) (hz : .flag .z ∈ w) (a v : Byte) :
    KeepsP w p (putBitTest a v p) :=
  ((keepsP_putFlag hn _).trans (keepsP_putFlag hv _)).trans (keepsP_putFlag hz _)

theorem keepsP_putFlags (hn : .flag .n ∈ w) (hv : .flag .v ∈ w) (hz : .flag .z ∈ w) (hc : .flag .c ∈ w)
    (res : AluResult) : KeepsP w p (res.putFlags p) :=
  (((keepsP_putFlag hc _).trans (keepsP_putFlag hz _)).trans (keepsP_putFlag hv _)).trans (keepsP_putFlag hn _)

end

/-! ### States -/

/-- The state `t` is `s` but for the registers and flags that `w` lists, with no callback run. It says nothing
of PC, memory and the booking: `InstrFrame` and `Booked` do. -/
structure Frame (w : List Part) (s t : State) : Prop where
  a : .a ∉ w → t.a = s.a
  x : .x ∉ w → t.x = s.x
  y : .y ∉ w → t.y = s.y
  sp : .s ∉ w → t.sp = s.sp
  p : KeepsP w s.p t.p
  exitReq : t.exitReq = s.exitReq
  vsrCalls : t.vsrCalls = s.vsrCalls

namespace Frame
variable {w : List Part} {s t : State}

theorem refl : Frame w s s := ⟨fun _ => rfl, fun _ => rfl, fun _ => rfl, fun _ => rfl, .refl, rfl, rfl⟩

theorem setA (k : Frame w s t) (h : .a ∈ w) (v : Byte) : Frame w s (t.setA v) := { k with a := fun n => absurd h n }
theorem setX (k : Frame w s t) (h : .x ∈ w) (v : Byte) : Frame w s (t.setX v) := { k with x := fun n => absurd h n }
theorem setY (k : Frame w s t) (h : .y ∈ w) (v : Byte) : Frame w s (t.setY v) := { k with y := fun n => absurd h n }
theorem setS (k : Frame w s t) (h : .s ∈ w) (v : Byte) : Frame w s (t.setS v) := { k with sp := fun n => absurd h n }
theorem updateP (k : Frame w s t) {g : Byte → Byte} (h : KeepsP w t.p (g t.p)) : Frame w s (t.updateP g) :=
  { k with p := k.p.trans h }
theorem setP (k : Frame w s t) (h : wholeP ⊆ w) (v : Byte) : Frame w s (t.setP v) := { k with p := keepsP_wholeP h }
theorem setPc (k : Frame w s t) (v : Word) : Frame w s (t.setPc v) := { k with }
theorem write (k : Frame w s t) (addr : Word) (v : Byte) : Frame w s (t.write addr v) := { k with }
theorem push (k : Frame w s t) (h : .s ∈ w) (v : Byte) : Frame w s (t.push v) := (k.write _ v).setS h _
theorem pushWord (k : Frame w s t) (h : .s ∈ w) (v : Word) : Frame w s (t.pushWord v) := (k.push h _).push h _
theorem book (k : Frame w s t) (op : Byte) (extra : Nat) : Frame w s (t.book op extra) := { k with }

theorem setNZ (k : Frame w s t) (hn : .flag .n ∈ w) (hz : .flag .z ∈ w) (v : Byte) : Frame w s (t.setNZ v) :=
  k.updateP (keepsP_putNZ hn hz v)

theorem setFlag (k : Frame w s t) {f : Flag} (h : .flag f ∈ w) (on : Bool) : Frame w s (t.setFlag f on) :=
  k.updateP (keepsP_putFlag h on)

theorem putAlu (k : Frame w s t) (ha : .a ∈ w) (hn : .flag .n ∈ w) (hv : .flag .v ∈ w) (hz : .flag .z ∈ w)
    (hc : .flag .c ∈ w) (r : AluResult) : Frame w s (t.putAlu r) :=
  (k.setA ha _).updateP (keepsP_putFlags hn hv hz hc r)

theorem takeInterrupt (k : Frame w s t) (hs : .s ∈ w) (hi : .flag .i ∈ w) (vec ret : Word) (status : Byte) :
    Frame w s (t.takeInterrupt vec ret status) :=
  (((k.pushWord hs ret).push hs status).setFlag hi true).setPc _

theorem storeOperand (k : Frame w s t) {o : Operand} {v : Byte} {u : State} (h : t.storeOperand o v = some u)
    (ha : o = .accumulator → .a ∈ w) : Frame w s u := by
  obtain ⟨ho, rfl⟩ | ⟨ea, -, -, rfl⟩ := storeOperand_some h
  · exact k.setA (ha ho) v
  · exact k.write ea v

end Frame

/-! ### Instructions -/

/-- An instruction from `s` to `t` has written only what `writes` lists; if PC is not in the list, it stands past the
instruction (R168). -/
structure InstrFrame (i : Instr) (s t : State) : Prop extends Frame (writes i) s t where
  pc : .pc ∉ writes i → t.pc = s.pc + BitVec.ofNat 16 i.length

section
variable {i : Instr} {o : Operand} {s t : State}

theorem advanceAfter_instrFrame {e : State → State} (op : Byte) (extra : Nat) (k : Frame (writes i) s (e s)) :
    InstrFrame i s (advanceAfter i op extra e s) :=
  ⟨(k.setPc _).book op extra, fun _ => rfl⟩

theorem InstrFrame.ofPcWriter (hpc : .pc ∈ writes i) (k : Frame (writes i) s t) : InstrFrame i s t :=
  ⟨k, fun n => absurd hpc n⟩

theorem execImplied_instrFrame {e : State → State} (h : execImplied i e s = .next t) (k : Frame (writes i) s (e s)) :
    InstrFrame i s t := by
  obtain ⟨op, -, rfl⟩ := execImplied_next.mp h
  exact advanceAfter_instrFrame op 0 k

theorem execRead_instrFrame {e : Byte → State → State} (h : execRead i o e s = .next t)
    (k : ∀ v, Frame (writes i) s (e v s)) : InstrFrame i s t := by
  obtain ⟨op, v, -, -, rfl⟩ := execRead_next.mp h
  exact advanceAfter_instrFrame op _ (k v)

/-- A store has no Accumulator form, so it changes no register. -/
theorem execStore_instrFrame {v : Byte} (h : execStore i o v s = .next t) (ho : i.opcode.isSome → o ≠ .accumulator) :
    InstrFrame i s t := by
  obtain ⟨op, u, hop, hu, rfl⟩ := execStore_next.mp h
  exact advanceAfter_instrFrame op _ (Frame.refl.storeOperand hu fun e => absurd e (ho (by simp [hop])))

/-- A read-modify-write writes A in its Accumulator form alone. -/
theorem execRmw_instrFrame {f : Rmw} (h : execRmw i o f s = .next t)
    (ha : i.opcode.isSome → o = .accumulator → .a ∈ writes i) (hp : ∀ v, KeepsP (writes i) s.p (f v s.p).2) :
    InstrFrame i s t := by
  obtain ⟨op, v, u, hop, -, hu, rfl⟩ := execRmw_next.mp h
  have k : Frame (writes i) s u := Frame.refl.storeOperand hu (ha (by simp [hop]))
  exact advanceAfter_instrFrame op _ { k with p := hp v }

theorem execBranch_instrFrame {cond : Bool} {b : Byte} (h : execBranch i cond b s = .next t) (hpc : .pc ∈ writes i) :
    InstrFrame i s t := by
  obtain ⟨op, -, rfl⟩ := execBranch_next.mp h
  refine .ofPcWriter hpc ?_
  split
  · exact (Frame.refl.setPc _).book op _
  · exact (Frame.refl.setPc _).book op 0

/-- A jump whose target has no callback. -/
theorem bookAfterVsr_instrFrame {op : Byte} {target : Word} {isJsr : Bool} {u : State}
    (h : bookAfterVsr op target isJsr u = .next t) (hv : u.vsr.lookup target = none) (hpc : .pc ∈ writes i)
    (k : Frame (writes i) s u) : InstrFrame i s t := by
  rw [bookAfterVsr_none hv] at h
  obtain rfl := Host.Outcome.next.inj h
  exact .ofPcWriter hpc (k.book op 0)

end

section
variable (s : State)

theorem setA_setNZ_frame (v u : Byte) : Frame [.a, .flag .n, .flag .z] s ((s.setA v).setNZ u) :=
  (Frame.refl.setA (by simp) v).setNZ (by simp) (by simp) u

theorem setX_setNZ_frame (v u : Byte) : Frame [.x, .flag .n, .flag .z] s ((s.setX v).setNZ u) :=
  (Frame.refl.setX (by simp) v).setNZ (by simp) (by simp) u

theorem setY_setNZ_frame (v u : Byte) : Frame [.y, .flag .n, .flag .z] s ((s.setY v).setNZ u) :=
  (Frame.refl.setY (by simp) v).setNZ (by simp) (by simp) u

theorem compare_frame (reg v : Byte) : Frame [.flag .n, .flag .z, .flag .c] s (s.updateP (putCompare reg v)) :=
  Frame.refl.updateP (keepsP_putCompare (by simp) (by simp) (by simp) reg v)

theorem putAlu_frame (r : AluResult) : Frame [.a, .flag .n, .flag .v, .flag .z, .flag .c] s (s.putAlu r) :=
  Frame.refl.putAlu (by simp) (by simp) (by simp) (by simp) (by simp) r

theorem setFlag_frame (f : Flag) (on : Bool) : Frame [.flag f] s (s.setFlag f on) :=
  Frame.refl.setFlag (by simp) on

theorem push_frame (v : Byte) : Frame [.s] s (s.push v) := Frame.refl.push (by simp) v

end

/-- Every instruction that invokes no callback writes only what `writes` lists for it. -/
theorem exec_instrFrame {i : Instr} {s t : State} (hn : Claims.noCallback i s) (h : exec i s = .next t) :
    InstrFrame i s t := by
  cases i with
  | lda o | and o | ora o | eor o => exact execRead_instrFrame h fun v => setA_setNZ_frame s _ _
  | ldx o => exact execRead_instrFrame h fun v => setX_setNZ_frame s _ _
  | ldy o => exact execRead_instrFrame h fun v => setY_setNZ_frame s _ _
  | adc o | sbc o => exact execRead_instrFrame h fun v => putAlu_frame s _
  | cmp o | cpx o | cpy o => exact execRead_instrFrame h fun v => compare_frame s _ _
  | bit o =>
    exact execRead_instrFrame h fun v =>
      Frame.refl.updateP (keepsP_putBitTest (by simp [writes]) (by simp [writes]) (by simp [writes]) _ v)
  | sta o | stx o | sty o => exact execStore_instrFrame h (by rintro hop rfl; cases hop)
  | inc o | dec o =>
    simp only [exec_inc, execInc, exec_dec, execDec] at h
    exact execRmw_instrFrame h (by rintro hop rfl; cases hop) fun v =>
      keepsP_putNZ (by simp [writes]) (by simp [writes]) _
  | asl o | lsr o | rol o | ror o =>
    simp only [exec_asl, execAsl, exec_lsr, execLsr, exec_rol, execRol, exec_ror, execRor] at h
    exact execRmw_instrFrame h (by rintro - rfl; simp [writes]) fun v =>
      keepsP_shifted (by simp [writes]) (by simp [writes]) (by simp [writes]) _ _
  | txa | tya => exact execImplied_instrFrame h (setA_setNZ_frame s _ _)
  | tax | tsx | inx | dex => exact execImplied_instrFrame h (setX_setNZ_frame s _ _)
  | tay | iny | dey => exact execImplied_instrFrame h (setY_setNZ_frame s _ _)
  | txs => exact execImplied_instrFrame h (Frame.refl.setS (by simp [writes]) _)
  | clc | cld | cli | clv | sec | sed | sei => exact execImplied_instrFrame h (setFlag_frame s _ _)
  | nop => exact execImplied_instrFrame h .refl
  | pha | php => exact execImplied_instrFrame h (push_frame s _)
  | pla =>
    exact execImplied_instrFrame h
      (((Frame.refl.setS (by simp [writes]) _).setA (by simp [writes]) _).setNZ (by simp [writes]) (by simp [writes]) _)
  | plp => exact execImplied_instrFrame h ((Frame.refl.setS (by simp [writes]) _).setP (by simp [writes]) _)
  | bcc b | bcs b | beq b | bmi b | bne b | bpl b | bvc b | bvs b => exact execBranch_instrFrame h (by simp [writes])
  | jmp o =>
    rw [exec_jmp, execJmp] at h
    obtain ⟨op, -, h⟩ := withOpcode_next.mp h
    split at h
    · next target ht => exact bookAfterVsr_instrFrame h (hn target ht) (by simp [writes]) (Frame.refl.setPc _)
    · cases h
  | jsr target =>
    rw [exec_jsr, execJsr] at h
    obtain ⟨op, -, h⟩ := withOpcode_next.mp h
    exact bookAfterVsr_instrFrame h (hn target rfl) (by simp [writes])
      ((Frame.refl.pushWord (by simp [writes]) _).setPc _)
  | rts =>
    rw [exec_rts, execRts] at h
    obtain ⟨op, -, h⟩ := withOpcode_next.mp h
    obtain rfl := Host.Outcome.next.inj h
    exact .ofPcWriter (by simp [writes]) (((Frame.refl.setS (by simp [writes]) _).setPc _).book op 0)
  | rti =>
    rw [exec_rti, execRti] at h
    obtain ⟨op, -, h⟩ := withOpcode_next.mp h
    obtain rfl := Host.Outcome.next.inj h
    exact .ofPcWriter (by simp [writes])
      ((((Frame.refl.setS (by simp [writes]) _).setP (by simp [writes]) _).setPc _).book op 0)
  | brk =>
    rw [exec_brk, execBrk] at h
    obtain ⟨op, -, h⟩ := withOpcode_next.mp h
    obtain rfl := Host.Outcome.next.inj h
    exact .ofPcWriter (by simp [writes])
      (((Frame.refl.takeInterrupt (by simp [writes]) (by simp [writes]) _ _ _).setFlag (by simp [writes]) true).book op 0)
  | illegal b =>
    rw [exec_illegal, execIllegal] at h
    obtain ⟨op, -, h⟩ := withOpcode_next.mp h
    obtain rfl := Host.Outcome.next.inj h
    exact ⟨{ Frame.refl (w := []) (s := s) with }, fun _ => rfl⟩

theorem opcodeByte_of_opcode {i : Instr} {op : Byte} (h : i.opcode = some op) : Claims.opcodeByte i = op := by
  rw [Claims.opcodeByte, encode, h]
  rfl

/-- Settles O49: a flag that changed is one the instruction may write, so its mnemonic is among the flag's writers. -/
theorem flagsAreWrittenOnlyByTheirWriters : Obligations.FlagsAreWrittenOnlyByTheirWriters := by
  intro i s t hn h
  have frame := (exec_instrFrame hn h).p
  have writer (f : Flag) (hf : t.flag f ≠ s.flag f) : i.mnemonic ∈ writers (.flag f) :=
    mem_writers i _ (Classical.byContradiction fun hw => hf (frame.flag f hw))
  refine ⟨writer .n, writer .z, writer .v, writer .b, writer .d, writer .i, writer .c, fun h5 => ⟨?_, ?_⟩⟩
  · obtain ⟨op, -, ⟨-, hb⟩ | ⟨-, rfl⟩⟩ := exec_next h
    · cases hs : s.p.getLsbD 5 with
      | true => exact hb.untouched.bit5 hs
      | false => rw [hs] at h5; exact Bool.eq_true_of_not_eq_false h5
    · exact absurd rfl h5
  · exact mem_writers i .bit5 (Classical.byContradiction fun hw => h5 (frame.bit5 hw))

/-- Settles O50: a register that changed is one the instruction may write; the engine state is what `exec_next` says. -/
theorem registersAreWrittenOnlyByTheirWriters : Obligations.RegistersAreWrittenOnlyByTheirWriters := by
  intro i s t hn h
  have frame := exec_instrFrame hn h
  have writer (part : Part) {P : Prop} (hP : part ∉ writes i → P) (hnP : ¬P) : i.mnemonic ∈ writers part :=
    mem_writers i part (Classical.byContradiction fun hw => hnP (hP hw))
  obtain ⟨op, hop, hnext⟩ := exec_next h
  refine ⟨writer .a frame.a, fun hshift hmode => frame.a ?_, writer .x frame.x, writer .y frame.y, writer .s frame.sp,
    writer .pc frame.pc, fun hm => ?_, ?_⟩
  · exact a_notMem_writes_of_shift hshift hmode
  · obtain ⟨-, hb⟩ | ⟨rfl, -⟩ := hnext
    · exact ⟨hb.runState, fun b => by rw [hb.coverage, mem_mark, opcodeByte_of_opcode hop]⟩
    · exact absurd rfl hm
  · obtain ⟨-, hb⟩ | ⟨-, rfl⟩ := hnext
    · obtain ⟨hnmi, hirq, hstuck, hvsr, hpowered, hparams, -, -⟩ := hb.untouched
      exact ⟨hnmi, hirq, hstuck, hvsr, hpowered, frame.exitReq, frame.vsrCalls, hparams⟩
    · exact ⟨rfl, rfl, rfl, rfl, rfl, rfl, rfl, rfl⟩

end Sys2Proof.Machine

/-! # Proofs of the statements on memory (20_memory.md): reads after writes, the canonical form, the stack, and the
writes of a step's access sequence. -/

namespace Sys2Proof.Machine

/-! ## Reads after any list of writes (R44) -/

/-- Bytes stored elsewhere leave an address as it was, whatever the form of the memory. -/
theorem read_writeAll_of_notMem {a : Word} {l : List (Word × Byte)} (h : a ∉ l.map Prod.fst) (m : Memory) :
    (m.writeAll l).read a.toNat = m.read a.toNat := by
  induction l generalizing m with
  | nil => rfl
  | cons c l ih =>
    obtain ⟨hc, hl⟩ := List.ne_and_not_mem_of_not_mem_cons h
    rw [Memory.writeAll, ih hl, Memory.read_write_ne fun e => hc (BitVec.eq_of_toNat_eq e.symm)]

/-- Settles O1: by induction on the writes; the head counts only where no later write names the address. -/
theorem readsReturnTheLastByteWritten : Obligations.ReadsReturnTheLastByteWritten := by
  intro m l a hm
  induction l generalizing m with
  | nil => rfl
  | cons c l ih =>
    rw [Memory.writeAll, ih _ (Memory.wf_write m c.1 c.2 hm), List.reverse_cons, List.find?_append]
    cases l.reverse.find? fun d => d.1 == a with
    | some d => rfl
    | none =>
      by_cases hc : c.1 = a
      · simp [hc, Memory.read_write_self hm]
      · simp [hc, Memory.read_write_ne fun e => hc (BitVec.eq_of_toNat_eq e)]

/-! ## The canonical form has no hidden state (log 1) -/

theorem wfFrom_cons_iff {lo k : Nat} {w : Byte} {m : Memory} :
    Memory.wfFrom lo ((k, w) :: m) = true ↔
      lo ≤ k ∧ k < 65536 ∧ w ≠ Memory.unlisted ∧ Memory.wfFrom (k + 1) m = true := by
  simp [Memory.wfFrom, and_assoc]

/-- A canonical memory reads as unlisted below its first listed address. -/
theorem head_le_of_read {lo k a : Nat} {w : Byte} {m : Memory} (hm : Memory.wfFrom lo ((k, w) :: m) = true)
    (h : Memory.read ((k, w) :: m) a ≠ Memory.unlisted) : k ≤ a := by
  obtain ⟨-, hk⟩ := wfFrom_cons_iff.mp hm
  exact Nat.le_of_not_lt fun hlt => h (Memory.read_of_lt (wfFrom_cons_iff.mpr ⟨le_rfl, hk⟩) hlt)

/-- Memories in canonical form that read alike are the same list: neither can begin below the other, so they begin with
the same cell, and past it both still read alike. -/
theorem eq_of_reads {m m' : Memory} {lo lo' : Nat} (hm : Memory.wfFrom lo m = true) (hm' : Memory.wfFrom lo' m' = true)
    (h : ∀ a < 65536, m.read a = m'.read a) : m = m' := by
  induction m generalizing lo lo' m' with
  | nil =>
    cases m' with
    | nil => rfl
    | cons c' m' =>
      obtain ⟨-, hk', hw', -⟩ := wfFrom_cons_iff.mp hm'
      exact absurd (h c'.1 hk').symm (by simpa [Memory.read] using hw')
  | cons c m ih =>
    obtain ⟨k, w⟩ := c
    obtain ⟨-, hk, hw, htail⟩ := wfFrom_cons_iff.mp hm
    have hread : w = m'.read k := by simpa [Memory.read] using h k hk
    cases m' with
    | nil => exact absurd hread hw
    | cons c' m' =>
      obtain ⟨k', w'⟩ := c'
      obtain ⟨-, hk', hw', htail'⟩ := wfFrom_cons_iff.mp hm'
      have hread' : Memory.read ((k, w) :: m) k' = w' := by simpa [Memory.read] using h k' hk'
      obtain rfl : k = k' := le_antisymm (head_le_of_read hm (hread' ▸ hw')) (head_le_of_read hm' (hread ▸ hw))
      obtain rfl : w = w' := by simpa [Memory.read] using hread
      refine congrArg _ (ih htail htail' fun a ha => ?_)
      by_cases hka : k = a
      · rw [Memory.read_of_lt htail (by omega), Memory.read_of_lt htail' (by omega)]
      · simpa [Memory.read, hka] using h a ha

/-- Settles O2: canonical memories are equal where their reads are. -/
theorem equalReadsMakeEqualMemories : Obligations.EqualReadsMakeEqualMemories := by
  intro m m' hm hm' h
  exact eq_of_reads hm hm' fun a ha => by simpa [Nat.mod_eq_of_lt ha] using h (BitVec.ofNat 16 a)

/-! ## The stack and 16-bit reads (R46, R48, R49) -/

/-- `0x0100 + S` as a 16-bit address (R48). -/
theorem eq_stackAddr_iff {a : Word} {sp : Byte} : a = stackAddr sp ↔ a.toNat = 0x0100 + sp.toNat := by
  rw [← stackAddr_toNat, BitVec.toNat_inj]

/-- Settles O3: S counts modulo 256, so `0x0100 + S` stays in page 1. -/
theorem pushAndPullWrapInPageOne : Obligations.PushAndPullWrapInPageOne := by
  intro s v hm
  have hinc : (s.sp + 1).toNat = (s.sp.toNat + 1) % 256 := BitVec.toNat_add _ _
  refine ⟨⟨fun a => ?_, ?_, rfl⟩, ?_, hinc, rfl⟩
  · rw [State.push, read_setS, read_write s hm, if_congr eq_stackAddr_iff rfl rfl]
  · rw [push_sp]
    bv_omega
  · rw [pull_fst, State.read, stackAddr_toNat, hinc]

/-- Settles O4: the high byte is read at the next address, which wraps. -/
theorem sixteenBitReadsAreLittleEndian : Obligations.SixteenBitReadsAreLittleEndian := by
  intro s a
  have hnext : (a + 1).toNat = (a.toNat + 1) % 65536 := BitVec.toNat_add _ _
  rw [State.read16, concat_eq_ofNat, State.read, State.read, hnext, BitVec.toNat_ofNat]
  omega

/-! ## The writes of an access sequence (R52, R92) -/

@[simp] theorem writesOf_append (l l' : List Access) : writesOf (l ++ l') = writesOf l ++ writesOf l' := by
  induction l with
  | nil => rfl
  | cons e l ih => cases e <;> simp [writesOf, ih]

@[simp] theorem writesOf_pullAccesses (n : Nat) (sp : Byte) : writesOf (pullAccesses sp n) = [] := by
  induction n generalizing sp with
  | zero => rfl
  | succ n ih => exact ih (sp + 1)

section
variable (s : State)

@[simp] theorem writesOf_fetchAccesses : writesOf s.fetchAccesses = [] := by
  rw [State.fetchAccesses]
  induction List.range (lookup (s.read s.pc)).mode.length with
  | nil => rfl
  | cons k l ih => exact ih

@[simp] theorem writesOf_pointerAccesses (o : Operand) : writesOf (s.pointerAccesses o) = [] := by
  cases o <;> rfl

@[simp] theorem writesOf_dataRead (o : Operand) : writesOf (s.dataRead o) = [] := by
  rw [State.dataRead]
  split <;> rfl

@[simp] theorem writesOf_readAccesses (o : Operand) : writesOf (s.readAccesses o) = [] := by
  simp [State.readAccesses]

@[simp] theorem writesOf_storeAccesses (o : Operand) (v : Byte) :
    writesOf (s.storeAccesses o v) = writesOf (s.dataWrite o v) := by
  simp [State.storeAccesses]

/-- A read-modify-write stores the result computed from its operand (R92). -/
theorem writesOf_rmwAccesses {o : Operand} {v : Byte} (h : s.operandValue o = some v) (f : Rmw) :
    writesOf (s.rmwAccesses o f) = writesOf (s.dataWrite o (f v s.p).1) := by
  simp [State.rmwAccesses, h]

@[simp] theorem writesOf_vsrAccesses (target : Word) (isJsr : Bool) : writesOf (s.vsrAccesses target isJsr) = [] := by
  rw [State.vsrAccesses]
  split
  · rfl
  · simp only [writesOf]
    split
    · exact writesOf_pullAccesses 2 _
    · rfl

/-- A jump stores nothing (R143); what a callback does is not its own access. -/
theorem writesOf_jmp (o : Operand) : writesOf (s.instrAccesses (.jmp o)) = [] := by
  rw [State.instrAccesses, writesOf_append, writesOf_pointerAccesses, List.nil_append]
  split
  · exact writesOf_vsrAccesses ..
  · rfl

/-- JSR stores its return address, high byte first (R144). -/
theorem writesOf_jsr (target : Word) : writesOf (s.instrAccesses (.jsr target)) =
    [(stackAddr s.sp, hiByte (s.pc + 2)), (stackAddr (s.sp - 1), loByte (s.pc + 2))] := by
  rw [State.instrAccesses, writesOf_append, writesOf_vsrAccesses]
  rfl

/-- What an instruction writes does not depend on an earlier step's exit request. -/
theorem writesOf_clearExit_instrAccesses (i : Instr) :
    writesOf (s.clearExit.instrAccesses i) = writesOf (s.instrAccesses i) := by
  cases i with
  | jmp o => rw [writesOf_jmp, writesOf_jmp]
  | jsr target => rw [writesOf_jsr, writesOf_jsr, clearExit_sp, clearExit_pc]
  | _ => rfl

/-- An interrupt entry writes what its access sequence lists (R204). -/
theorem interruptEntry_mem (vec : Word) :
    (s.interruptEntry vec).mem = s.mem.writeAll (writesOf (s.interruptAccesses vec)) := by
  rw [State.interruptEntry, takeInterrupt_mem]
  rfl

end

section
variable {i : Instr} {o : Operand} {s t : State}

/-- `StoreOperand` writes memory at the data address, if the mode has one (R92). -/
theorem storeOperand_mem {v : Byte} (h : s.storeOperand o v = some t) :
    t.mem = s.mem.writeAll (writesOf (s.dataWrite o v)) := by
  obtain ⟨rfl, rfl⟩ | ⟨ea, -, hea, rfl⟩ := storeOperand_some h
  · rfl
  · rw [State.dataWrite, hea]
    rfl

theorem execStore_mem {v : Byte} (h : execStore i o v s = .next t) :
    t.mem = s.mem.writeAll (writesOf (s.storeAccesses o v)) := by
  obtain ⟨op, u, -, hu, rfl⟩ := execStore_next.mp h
  rw [advanceAfter_mem, storeOperand_mem hu, writesOf_storeAccesses]

theorem execRmw_mem {f : Rmw} (h : execRmw i o f s = .next t) :
    t.mem = s.mem.writeAll (writesOf (s.rmwAccesses o f)) := by
  obtain ⟨op, v, u, -, hv, hu, rfl⟩ := execRmw_next.mp h
  rw [advanceAfter_mem, updateP_mem, storeOperand_mem hu, writesOf_rmwAccesses s hv]

theorem execRead_mem {e : Byte → State → State} (h : execRead i o e s = .next t) (he : ∀ v, (e v s).mem = s.mem) :
    t.mem = s.mem.writeAll (writesOf (s.readAccesses o)) := by
  obtain ⟨op, v, -, -, rfl⟩ := execRead_next.mp h
  rw [advanceAfter_mem, he, writesOf_readAccesses, Memory.writeAll]

theorem execImplied_mem {e : State → State} (h : execImplied i e s = .next t)
    (he : (e s).mem = s.mem.writeAll (writesOf (s.instrAccesses i))) :
    t.mem = s.mem.writeAll (writesOf (s.instrAccesses i)) := by
  obtain ⟨op, -, rfl⟩ := execImplied_next.mp h
  exact he

theorem execBranch_mem {cond : Bool} {b : Byte} (h : execBranch i cond b s = .next t)
    (hi : writesOf (s.instrAccesses i) = []) : t.mem = s.mem.writeAll (writesOf (s.instrAccesses i)) := by
  obtain ⟨op, -, rfl⟩ := execBranch_next.mp h
  rw [hi]
  split <;> rfl

/-- An instruction that invokes no callback writes what its access sequence lists, in order. -/
theorem exec_mem (hn : Claims.noCallback i s) (h : exec i s = .next t) :
    t.mem = s.mem.writeAll (writesOf (s.instrAccesses i)) := by
  cases i with
  | adc o | sbc o | and o | ora o | eor o | cmp o | cpx o | cpy o | bit o | lda o | ldx o | ldy o =>
    exact execRead_mem h fun v => rfl
  | sta o | stx o | sty o => exact execStore_mem h
  | asl o | lsr o | rol o | ror o | inc o | dec o => exact execRmw_mem h
  | bcc b | bcs b | beq b | bmi b | bne b | bpl b | bvc b | bvs b => exact execBranch_mem h rfl
  | jmp o =>
    rw [exec_jmp, execJmp] at h
    obtain ⟨op, -, h⟩ := withOpcode_next.mp h
    rw [writesOf_jmp]
    split at h
    · next target ht =>
      rw [bookAfterVsr_none (s := s.setPc target) (hn target ht)] at h
      obtain rfl := Host.Outcome.next.inj h
      rfl
    · cases h
  | jsr target =>
    rw [exec_jsr, execJsr] at h
    obtain ⟨op, -, h⟩ := withOpcode_next.mp h
    rw [bookAfterVsr_none (s := (s.pushWord (s.pc + 2)).setPc target) (hn target rfl)] at h
    obtain rfl := Host.Outcome.next.inj h
    rw [writesOf_jsr]
    rfl
  | rts | rti | brk | illegal _ =>
    simp only [exec_rts, execRts, exec_rti, execRti, exec_brk, execBrk, exec_illegal, execIllegal, withOpcode_next] at h
    obtain ⟨op, -, ht⟩ := h
    obtain rfl := Host.Outcome.next.inj ht
    rfl
  | _ => exact execImplied_mem h rfl

end

/-! ## Where an instruction stores (R48, R92) -/

theorem dataWrite_addrs (s : State) (o : Operand) (v : Byte) :
    (writesOf (s.dataWrite o v)).map Prod.fst = (s.dataAddress o).toList := by
  rw [State.dataWrite]
  cases s.dataAddress o <;> rfl

/-- A mode without an operand value has no memory operand. -/
theorem dataAddress_eq_none {s : State} {o : Operand} (h : s.operandValue o = none) : s.dataAddress o = none := by
  cases o with
  | immediate _ | accumulator => rfl
  | _ => exact Option.map_eq_none_iff (f := s.read) |>.mp h

theorem rmwAccesses_addrs (s : State) (o : Operand) (f : Rmw) :
    (writesOf (s.rmwAccesses o f)).map Prod.fst = (s.dataAddress o).toList := by
  cases hv : s.operandValue o with
  | some v => rw [writesOf_rmwAccesses s hv, dataWrite_addrs]
  | none => simp [State.rmwAccesses, hv, dataAddress_eq_none hv]

/-- The addresses that an instruction's access sequence writes are those it stores to. -/
theorem instrAccesses_addrs (i : Instr) (s : State) :
    (writesOf (s.instrAccesses i)).map Prod.fst = Claims.storedTo i s := by
  cases i with
  | adc o | sbc o | and o | ora o | eor o | cmp o | cpx o | cpy o | bit o | lda o | ldx o | ldy o =>
    rw [State.instrAccesses, writesOf_readAccesses]
    rfl
  | sta o | stx o | sty o =>
    rw [State.instrAccesses, writesOf_storeAccesses, dataWrite_addrs]
    rfl
  | asl o | lsr o | rol o | ror o | inc o | dec o => exact rmwAccesses_addrs s o _
  | jmp o =>
    rw [writesOf_jmp]
    rfl
  | jsr target =>
    rw [writesOf_jsr]
    rfl
  | _ => rfl

/-- Settles O51: the writes of an instruction's access sequence reach no other address. -/
theorem memoryChangesOnlyWhereStored : Obligations.MemoryChangesOnlyWhereStored := by
  intro i s t hn h a ha
  rw [State.read, exec_mem hn h, read_writeAll_of_notMem (by rwa [instrAccesses_addrs]), State.read]

/-! ## The writes of a step (R52, R55) -/

/-- A jump to a registered target lists its callback (R175). -/
theorem callback_mem_vsrAccesses {s : State} {target : Word} (h : s.vsr.lookup target ≠ none) (isJsr : Bool) :
    .callback target ∈ s.vsrAccesses target isJsr := by
  obtain ⟨cb, hcb⟩ := Option.ne_none_iff_exists'.mp h
  rw [State.vsrAccesses, hcb]
  exact List.mem_cons_self

/-- An instruction whose access sequence lists no callback invokes none. -/
theorem noCallback_of_accesses {i : Instr} {s : State} (h : ∀ w, .callback w ∉ s.instrAccesses i) :
    Claims.noCallback i s := by
  intro w hw
  by_contra hcb
  cases i with
  | jmp o =>
    have hea : (s.resolve o).ea = some w := hw
    refine h w (List.mem_append_right _ ?_)
    rw [hea]
    exact callback_mem_vsrAccesses hcb false
  | jsr target =>
    obtain rfl := Option.some.inj hw
    exact h target (List.mem_append_right _ (callback_mem_vsrAccesses hcb true))
  | _ => cases hw

section
variable {s : State}

theorem stepAccesses_of_terminal (hr : s.runState ≠ .running) : s.stepAccesses = [] := by
  unfold State.stepAccesses
  split
  · split
    · contradiction
    · rfl
  · rfl

variable (hp : s.powered = true) (hr : s.runState = .running)
include hp hr

theorem stepAccesses_of_nmi (hn : s.takesNmi = true) : s.stepAccesses = s.interruptAccesses nmiVector := by
  simp [State.stepAccesses, hp, hr, hn]

theorem stepAccesses_of_irq (hi : s.takesIrq = true) : s.stepAccesses = s.interruptAccesses irqVector := by
  have hn : s.takesNmi = false := by
    simp only [State.takesIrq, Bool.and_eq_true, Bool.not_eq_true'] at hi
    obtain ⟨⟨hlatch, -⟩, -⟩ := hi
    exact hlatch
  simp [State.stepAccesses, hp, hr, hn, hi]

theorem stepAccesses_of_instr (hn : s.takesNmi = false) (hi : s.takesIrq = false) :
    s.stepAccesses = s.fetchAccesses ++ s.instrAccesses s.fetch := by
  simp [State.stepAccesses, hp, hr, hn, hi]

end

/-- Settles O53: each of the four ways of a step (R162) writes what its access sequence lists. -/
theorem memoryAfterAStepIsItsAccessSequence : Obligations.MemoryAfterAStepIsItsAccessSequence := by
  intro s t hno h
  obtain ⟨hp, ⟨hr, rfl⟩ | ⟨hr, hnmi, rfl⟩ | ⟨hr, hirq, rfl⟩ | ⟨hr, hnmi, hirq, u, hu, rfl⟩⟩ := step_next h
  · rw [stepAccesses_of_terminal hr]
    rfl
  · rw [stepAccesses_of_nmi hp hr hnmi, endStep_mem, State.serviceNmi, addCycles_mem, interruptEntry_mem]
    rfl
  · rw [stepAccesses_of_irq hp hr hirq, endStep_mem, State.serviceIrq, addCycles_mem, interruptEntry_mem]
    rfl
  · rw [stepAccesses_of_instr hp hr hnmi hirq] at hno ⊢
    have hn : Claims.noCallback s.fetch s := noCallback_of_accesses fun w hw => hno w (List.mem_append_right _ hw)
    rw [endStep_mem, exec_mem (s := s.clearExit) hn hu, writesOf_append, writesOf_fetchAccesses,
      writesOf_clearExit_instrAccesses]
    rfl

end Sys2Proof.Machine

/-! # Proofs of the statements on the encoding (30_encoding.md): the bytes of an operand, what the decoder assembles,
and that decoding and encoding undo each other. -/

namespace Sys2Proof

/-! ## Operand bytes (R62, R63) -/

@[simp] theorem hiByte_concat (hi lo : Byte) : hiByte (concat hi lo) = hi := BitVec.extractLsb'_append_eq_left

@[simp] theorem loByte_concat (hi lo : Byte) : loByte (concat hi lo) = lo := BitVec.extractLsb'_append_eq_right

@[simp] theorem concat_hiByte_loByte (w : Word) : concat (hiByte w) (loByte w) = w :=
  BitVec.extractLsb'_append_extractLsb' (w := 8)

theorem length_eq_one_or_two_or_three (mode : Mode) : mode.length = 1 ∨ mode.length = 2 ∨ mode.length = 3 := by
  cases mode <;> decide

/-- An operand is assembled from as many bytes as its mode's length leaves after the opcode. -/
theorem bytes_operandOf (mode : Mode) (b1 b2 : Byte) :
    (operandOf mode b1 b2).bytes = [b1, b2].take (mode.length - 1) := by
  cases mode <;> simp [operandOf, Operand.bytes, Mode.length]

theorem mode_operandOf {mode : Mode} (h : mode ≠ .none) (b1 b2 : Byte) : (operandOf mode b1 b2).mode = mode := by
  cases mode with
  | none => exact absurd rfl h
  | _ => rfl

/-! ## The opcode of an instruction (R66, R67) -/

theorem opcode_eq_opcodeOf {i : Instr} (h : i.mnemonic ≠ .illegal) : i.opcode = opcodeOf i.mnemonic i.mode := by
  cases i with
  | illegal _ => exact absurd rfl h
  | _ => rfl

theorem mode_operand {i : Instr} (h : i.mnemonic ≠ .illegal) : i.operand.mode = i.mode := by
  cases i with
  | illegal _ => exact absurd rfl h
  | _ => rfl

/-- The well-formed terms are those that have an opcode byte. -/
theorem isSome_opcode (i : Instr) : i.opcode.isSome = i.wf := by
  cases i with
  | illegal op =>
    by_cases h : op ∈ illegalOpcodes <;>
      simp [Instr.opcode, Instr.wf, Instr.mnemonic, Instr.mode, Mnemonic.modes, isIllegal_eq, h]
  | _ => exact (opcodeOf_isSome (by simp [Instr.mnemonic]) _).trans (Bool.and_true _).symm

theorem encode_of_opcode {i : Instr} {op : Byte} (h : i.opcode = some op) : encode i = op :: i.operand.bytes := by
  rw [encode, h]

theorem opcode_illegal_iff {op op' : Byte} :
    (Instr.illegal op).opcode = some op' ↔ isIllegal op = true ∧ op = op' := by
  simp [Instr.opcode]

/-- The opcode map gives back the mnemonic and the mode of the instruction that an opcode byte encodes. -/
theorem lookup_of_opcode {i : Instr} {op : Byte} (h : i.opcode = some op) : lookup op = ⟨i.mnemonic, i.mode⟩ := by
  cases i with
  | illegal _ =>
    obtain ⟨hi, rfl⟩ := opcode_illegal_iff.mp h
    exact lookup_of_isIllegal _ hi
  | _ => exact lookup_opcodeOf h

/-! ## The entries of the opcode map (R64 to R67) -/

/-- The map by mnemonic has every legal entry of the map by opcode. -/
theorem opcodeOf_lookup {op : Byte} (h : isIllegal op = false) :
    opcodeOf (lookup op).mnemonic (lookup op).mode = some op := by
  revert op
  decide

theorem mode_mem_modes (op : Byte) : (lookup op).mode ∈ (lookup op).mnemonic.modes := by
  revert op
  decide

theorem mode_eq_of_modes {op : Byte} {mn : Mnemonic} {mode : Mode} (h : (lookup op).mnemonic = mn)
    (hm : mn.modes = [mode]) : (lookup op).mode = mode := by
  have := mode_mem_modes op
  rwa [h, hm, List.mem_singleton] at this

theorem isIllegal_iff {op : Byte} : isIllegal op = true ↔ (lookup op).mnemonic = .illegal := beq_iff_eq

theorem mode_eq_none_iff {op : Byte} : (lookup op).mode = .none ↔ isIllegal op = true := by
  revert op
  decide

/-! ## What the decoder assembles (R61, R63) -/

section
variable (op b1 b2 : Byte)

@[simp] theorem mnemonic_assemble : (assemble op b1 b2).mnemonic = (lookup op).mnemonic := by
  unfold assemble
  cases (lookup op).mnemonic <;> rfl

@[simp] theorem operand_assemble : (assemble op b1 b2).operand = operandOf (lookup op).mode b1 b2 := by
  unfold assemble
  cases h : (lookup op).mnemonic with
  | adc | and | asl | bit | cmp | cpx | cpy | dec | eor | inc | jmp | lda | ldx | ldy | lsr | ora | rol | ror | sbc
  | sta | stx | sty => rfl
  | _ =>
    rw [mode_eq_of_modes h rfl]
    rfl

theorem assemble_of_isIllegal {op : Byte} (h : isIllegal op = true) : assemble op b1 b2 = .illegal op := by
  rw [assemble, isIllegal_iff.mp h]

@[simp] theorem opcode_assemble : (assemble op b1 b2).opcode = some op := by
  cases h : isIllegal op with
  | true => rw [assemble_of_isIllegal b1 b2 h, opcode_illegal_iff.mpr ⟨h, rfl⟩]
  | false =>
    have hm : (assemble op b1 b2).mnemonic ≠ .illegal := by simpa [← isIllegal_iff] using h
    have hne : (lookup op).mode ≠ .none := by simpa [mode_eq_none_iff] using h
    rw [opcode_eq_opcodeOf hm, ← mode_operand hm, operand_assemble, mode_operandOf hne, mnemonic_assemble,
      opcodeOf_lookup h]

theorem encode_assemble : encode (assemble op b1 b2) = op :: [b1, b2].take ((lookup op).mode.length - 1) := by
  rw [encode_of_opcode (opcode_assemble op b1 b2), operand_assemble, bytes_operandOf]

end

/-- An instruction is assembled from its opcode byte and its operand's bytes. -/
theorem assemble_of_opcode {i : Instr} {op b1 b2 : Byte} (h : i.opcode = some op)
    (ho : operandOf i.mode b1 b2 = i.operand) : assemble op b1 b2 = i := by
  simp only [assemble, lookup_of_opcode h, ho]
  cases i with
  | illegal _ =>
    obtain ⟨-, rfl⟩ := opcode_illegal_iff.mp h
    rfl
  | bcc _ | bcs _ | beq _ | bmi _ | bne _ | bpl _ | bvc _ | bvs _ =>
    obtain rfl := Operand.relative.inj ho
    rfl
  | jsr _ => exact congrArg Instr.jsr (Operand.absolute.inj ho)
  | _ => rfl

/-! ## Decoding (R61, R64, R69) -/

section
variable {op : Byte}

theorem decode_of_length_one (h : (lookup op).mode.length = 1) (tail : List Byte) :
    decode (op :: tail) = .ok (assemble op 0 0, tail) := by
  simp [decode, h]

theorem decode_of_length_two (h : (lookup op).mode.length = 2) (b1 : Byte) (tail : List Byte) :
    decode (op :: b1 :: tail) = .ok (assemble op b1 0, tail) := by
  simp [decode, h]

theorem decode_of_length_three (h : (lookup op).mode.length = 3) (b1 b2 : Byte) (tail : List Byte) :
    decode (op :: b1 :: b2 :: tail) = .ok (assemble op b1 b2, tail) := by
  simp [decode, h]

/-- All that decoding can do after an opcode byte: it takes as many bytes as the mode's length says, or there are too
few. -/
theorem decode_cons_cases (op : Byte) (tail : List Byte) :
    (∃ b1 b2 rest, tail = [b1, b2].take ((lookup op).mode.length - 1) ++ rest ∧
      decode (op :: tail) = .ok (assemble op b1 b2, rest)) ∨
    (op :: tail).length < (lookup op).mode.length ∧ decode (op :: tail) = .error (.truncated op) := by
  obtain h | h | h := length_eq_one_or_two_or_three (lookup op).mode
  · exact .inl ⟨0, 0, tail, by rw [h]; rfl, decode_of_length_one h tail⟩
  · match tail with
    | [] => exact .inr (by simp [decode, h])
    | b1 :: rest => exact .inl ⟨b1, 0, rest, by rw [h]; rfl, decode_of_length_two h b1 rest⟩
  · match tail with
    | [] | [_] => exact .inr (by simp [decode, h])
    | b1 :: b2 :: rest => exact .inl ⟨b1, b2, rest, by rw [h]; rfl, decode_of_length_three h b1 b2 rest⟩

/-- The bytes of an operand decode to what the opcode assembles from them. -/
theorem decode_cons_operand_bytes {o : Operand} {mode : Mode} (ho : o.mode = mode) (h : (lookup op).mode = mode)
    (rest : List Byte) :
    ∃ b1 b2, operandOf mode b1 b2 = o ∧ decode (op :: (o.bytes ++ rest)) = .ok (assemble op b1 b2, rest) := by
  subst ho
  cases o with
  | implied | accumulator => exact ⟨0, 0, rfl, decode_of_length_one (by rw [h]; rfl) rest⟩
  | immediate b | zeroPage b | zeroPageX b | zeroPageY b | xIndexedIndirect b | indirectYIndexed b | relative b =>
    exact ⟨b, 0, rfl, decode_of_length_two (by rw [h]; rfl) b rest⟩
  | absolute a | absoluteX a | absoluteY a | indirect a =>
    refine ⟨loByte a, hiByte a, ?_, decode_of_length_three (by rw [h]; rfl) _ _ rest⟩
    simp [operandOf, Operand.mode]

/-- The same for an instruction's operand: an illegal entry has mode None and no operand bytes (R67). -/
theorem decode_cons_instr_bytes (i : Instr) (h : (lookup op).mode = i.mode) (rest : List Byte) :
    ∃ b1 b2, operandOf i.mode b1 b2 = i.operand ∧
      decode (op :: (i.operand.bytes ++ rest)) = .ok (assemble op b1 b2, rest) := by
  cases i with
  | illegal _ => exact ⟨0, 0, rfl, decode_of_length_one (by rw [h]; rfl) rest⟩
  | _ => exact decode_cons_operand_bytes (mode_operand (by simp [Instr.mnemonic])) h rest

end

/-- Settles O5: the encoding begins with the opcode byte, from which and the operand's bytes the decoder assembles the
instruction again. -/
theorem decodeOfEncodeIsTheInstruction : Obligations.DecodeOfEncodeIsTheInstruction := by
  intro i rest hwf
  obtain ⟨op, hop⟩ := Option.isSome_iff_exists.mp ((isSome_opcode i).trans hwf)
  have hmode : (lookup op).mode = i.mode := by rw [lookup_of_opcode hop]
  obtain ⟨b1, b2, ho, hdec⟩ := decode_cons_instr_bytes i hmode rest
  rw [encode_of_opcode hop, List.cons_append, hdec, assemble_of_opcode hop ho]

/-- Settles O6: what decodes is assembled from its own first bytes, and an assembled instruction has the opcode and the
operand it was assembled from. -/
theorem encodeOfDecodeIsTheBytes : Obligations.EncodeOfDecodeIsTheBytes := by
  refine ⟨fun bytes rest i h => ?_, fun bytes e h => ?_⟩
  · cases bytes with
    | nil => cases h
    | cons op tail =>
      obtain ⟨b1, b2, rest', rfl, hdec⟩ | ⟨-, hdec⟩ := decode_cons_cases op tail
      · obtain ⟨rfl, rfl⟩ := Prod.mk.inj (Except.ok.inj (hdec.symm.trans h))
        exact ⟨by rw [← isSome_opcode, opcode_assemble]; rfl, by rw [encode_assemble, List.cons_append]⟩
      · cases hdec.symm.trans h
  · cases bytes with
    | nil => exact (Except.error.inj h).symm
    | cons op tail =>
      obtain ⟨_, _, _, -, hdec⟩ | ⟨hlt, hdec⟩ := decode_cons_cases op tail
      · cases hdec.symm.trans h
      · exact ⟨Except.error.inj (h.symm.trans hdec), hlt⟩

/-! ## The illegal values and sample words (R65, R67) -/

theorem illegalOpcodes_rise : (illegalOpcodes.map BitVec.toNat).IsChain (· < ·) := by
  simp [illegalOpcodes]

theorem nodup_illegalOpcodes : illegalOpcodes.Nodup :=
  .of_map _ (List.isChain_iff_pairwise.mp illegalOpcodes_rise).sortedLT.nodup

theorem mem_illegalOpcodes_iff {op : Byte} : op ∈ illegalOpcodes ↔ isIllegal op = true := by
  rw [isIllegal_eq, List.contains_iff_mem]

/-- Settles O7: the map has illegal entries exactly at the listed values, and no legal entry has mode None. -/
theorem illegalOpcodeValuesAreThe105Listed : Obligations.IllegalOpcodeValuesAreThe105Listed := by
  refine ⟨fun op => ⟨?_, fun h => ?_⟩, rfl, nodup_illegalOpcodes, rfl⟩
  · rw [mem_illegalOpcodes_iff]
    exact ⟨lookup_of_isIllegal op, fun h => isIllegal_iff.mpr (by rw [h])⟩
  · rw [mem_illegalOpcodes_iff] at h
    exact ⟨mt isIllegal_iff.mpr h, mt mode_eq_none_iff.mp h⟩

/-- Settles O8: each word is evaluated against the opcode map. -/
theorem sampleWordsDecode : Obligations.SampleWordsDecode :=
  ⟨rfl, rfl, rfl, rfl, rfl, rfl, rfl, rfl, rfl, rfl⟩

end Sys2Proof

/-! # Proofs of the statements on addressing (40_addressing.md): effective addresses, page crosses, the operand helpers,
branch targets, and what an instruction costs under the NMOS table. -/

namespace Sys2Proof.Machine

/-! ## Addresses as numbers (00_scope.md R7, R8) -/

theorem zext16_eq_ofNat (v : Byte) : zext16 v = BitVec.ofNat 16 v.toNat := (BitVec.ofNat_toNat 16 v).symm

@[simp] theorem zext16_toNat (v : Byte) : (zext16 v).toNat = v.toNat :=
  BitVec.toNat_setWidth_of_le (by decide)

theorem concat_toNat (hi lo : Byte) : (concat hi lo).toNat = lo.toNat + 256 * hi.toNat := by
  rw [concat_eq_ofNat, BitVec.toNat_ofNat]
  omega

theorem hiByte_toNat (w : Word) : (hiByte w).toNat = w.toNat / 256 := by
  simp only [hiByte, BitVec.extractLsb'_toNat, Nat.shiftRight_eq_div_pow]
  omega

theorem loByte_toNat (w : Word) : (loByte w).toNat = w.toNat % 256 := by
  simp [loByte]

/-- Two addresses lie on different pages when their page numbers differ. -/
theorem pageCross_eq (base target : Word) : pageCross base target = decide (base.toNat / 256 ≠ target.toNat / 256) := by
  simp only [pageCross, bne, ← hiByte_toNat, ne_eq, BitVec.toNat_inj, decide_not, beq_eq_decide]

/-! ## Zero-page and indexed addresses (R78 to R83, R86) -/

theorem zext16_add_eq_ofNat (b index : Byte) :
    zext16 (b + index) = BitVec.ofNat 16 ((b.toNat + index.toNat) % 256) := by
  rw [zext16_eq_ofNat, BitVec.toNat_add]

/-- Settles O10: the 8-bit sum of the zero-page modes is a sum modulo 256. -/
theorem zeroPageAddressesWrapInPageZero : Obligations.ZeroPageAddressesWrapInPageZero := by
  intro s b
  refine ⟨?_, ?_, ?_, rfl, rfl, rfl, fun mn => by cases mn <;> decide⟩
  · rw [State.resolve, zext16_eq_ofNat]
  · rw [State.resolve, zext16_add_eq_ofNat]
  · rw [State.resolve, zext16_add_eq_ofNat]

/-- An indexed address counts modulo 65536, and crosses when its page is not the base's. -/
theorem indexed_eq (base : Word) (index : Byte) :
    indexed base index = ⟨some (BitVec.ofNat 16 ((base.toNat + index.toNat) % 65536)),
      decide (base.toNat / 256 ≠ (base.toNat + index.toNat) % 65536 / 256)⟩ := by
  have hea : (base + zext16 index).toNat = (base.toNat + index.toNat) % 65536 := by
    rw [BitVec.toNat_add, zext16_toNat]
  rw [indexed, pageCross_eq, ← hea, BitVec.ofNat_toNat, BitVec.setWidth_eq]

/-- Settles O11: the base is its two bytes, low byte first, and indexing is 16-bit addition. -/
theorem absoluteIndexingWrapsAndReportsPageCross : Obligations.AbsoluteIndexingWrapsAndReportsPageCross := by
  intro s b1 b2
  refine ⟨⟨?_, ?_, ?_⟩, ⟨rfl, rfl, rfl⟩, fun base => ⟨rfl, indexed_eq base s.x, indexed_eq base s.y⟩⟩ <;>
    rw [operandOf, concat_eq_ofNat]

/-! ## Pointers (R84 to R86) -/

/-- Both bytes of a zero-page pointer lie in page 0. -/
theorem zeroPagePointer_toNat (s : State) (p : Byte) :
    (s.zeroPagePointer p).toNat =
      (s.mem.read p.toNat).toNat + 256 * (s.mem.read ((p.toNat + 1) % 256)).toNat := by
  have hnext : (p + 1).toNat = (p.toNat + 1) % 256 := BitVec.toNat_add _ _
  rw [State.zeroPagePointer, concat_toNat, State.read, State.read, zext16_toNat, zext16_toNat, hnext]

theorem zeroPagePointer_eq_ofNat (s : State) (p : Byte) :
    s.zeroPagePointer p =
      BitVec.ofNat 16 ((s.mem.read p.toNat).toNat + 256 * (s.mem.read ((p.toNat + 1) % 256)).toNat) := by
  rw [← zeroPagePointer_toNat, BitVec.ofNat_toNat, BitVec.setWidth_eq]

/-- The high byte of JMP indirect's target stays in the pointer's page, or follows the pointer (R84). -/
theorem indirectHighAddr_toNat (pageWrap : Bool) (ptr : Word) :
    (indirectHighAddr pageWrap ptr).toNat =
      if pageWrap then ptr.toNat / 256 * 256 + (ptr.toNat % 256 + 1) % 256 else (ptr.toNat + 1) % 65536 := by
  have hlo : (loByte ptr + 1).toNat = (ptr.toNat % 256 + 1) % 256 := by
    rw [BitVec.toNat_add, loByte_toNat]
    rfl
  cases pageWrap with
  | true =>
    simp only [indirectHighAddr, if_true, concat_toNat, hlo, hiByte_toNat]
    omega
  | false => exact BitVec.toNat_add _ _

/-- Settles O12: each pointer's two bytes are read where the rule says, low byte first. -/
theorem pointerModesReadTheirPointers : Obligations.PointerModesReadTheirPointers := by
  intro s b ptr
  refine ⟨?_, ?_, ?_, rfl, rfl, rfl, fun mn => by cases mn <;> decide⟩
  · intro hiAddr
    rw [State.resolve, State.indirectTarget, concat_eq_ofNat, State.read, State.read, indirectHighAddr_toNat]
  · intro p
    rw [State.resolve, zeroPagePointer_eq_ofNat, BitVec.toNat_add]
  · intro base ea
    rw [State.resolve, indexed_eq, zeroPagePointer_toNat]

/-! ## The operand helpers (R92) -/

/-- The modes without a data address: no memory operand, or a jump target in its place. -/
theorem dataAddress_eq_none_iff {s : State} {o : Operand} :
    s.dataAddress o = none ↔ o.mode ∈ [.implied, .accumulator, .immediate, .relative, .indirect] := by
  cases o <;> simp [State.dataAddress, State.resolve, indexed, Operand.mode]

/-- `Operand(mode)` of a mode that is neither Immediate nor Accumulator. -/
theorem operandValue_of_mode_ne {o : Operand} (hi : o.mode ≠ .immediate) (ha : o.mode ≠ .accumulator) (s : State) :
    s.operandValue o = (s.dataAddress o).map s.read := by
  cases o with
  | immediate _ => exact absurd rfl hi
  | accumulator => exact absurd rfl ha
  | _ => rfl

theorem operandValue_eq_none_iff {s : State} {o : Operand} :
    s.operandValue o = none ↔ o.mode ∈ [.implied, .relative, .indirect] := by
  cases o with
  | immediate b | accumulator => simp [State.operandValue, Operand.mode]
  | _ =>
    rw [operandValue_of_mode_ne (by simp [Operand.mode]) (by simp [Operand.mode]), Option.map_eq_none_iff,
      dataAddress_eq_none_iff]
    simp [Operand.mode]

theorem resolve_ea_of_dataAddress {s : State} {o : Operand} {w : Word} (h : s.dataAddress o = some w) :
    (s.resolve o).ea = some w := by
  cases o with
  | indirect _ | relative _ => cases h
  | _ => exact h

/-- `Operand(mode)` of a memory mode is the byte at its address. -/
theorem operandValue_of_dataAddress {s : State} {o : Operand} {w : Word} (h : s.dataAddress o = some w) :
    s.operandValue o = some (s.mem.read w.toNat) := by
  cases o with
  | immediate _ | accumulator => cases h
  | _ => exact congrArg (Option.map s.read) h

/-- `StoreOperand(mode, v)` of a memory mode writes the byte at its address. -/
theorem storeOperand_of_dataAddress {s : State} {o : Operand} {w : Word} (h : s.dataAddress o = some w) (v : Byte) :
    s.storeOperand o v = some (s.write w v) := by
  rw [storeOperand_of_ne (by rintro rfl; cases h), h, Option.map_some]

/-- Settles O13: both helpers use the mode's data address. -/
theorem operandHelpersReadAndStore : Obligations.OperandHelpersReadAndStore := by
  intro s b v o w
  exact ⟨rfl, rfl, rfl,
    fun h => ⟨resolve_ea_of_dataAddress h, operandValue_of_dataAddress h, storeOperand_of_dataAddress h v⟩,
    dataAddress_eq_none_iff, operandValue_eq_none_iff⟩

/-! ## Branches (R87, R134) -/

/-- The branch target adds the signed offset modulo 65536. -/
theorem relativeTarget_eq_ofInt (pc : Word) (b : Byte) :
    relativeTarget pc b = BitVec.ofInt 16 (pc.toNat + 2 + b.toInt) := by
  rw [BitVec.ofInt_add, BitVec.ofInt_add, BitVec.ofInt_natCast, BitVec.ofNat_toNat, BitVec.setWidth_eq]
  rfl

theorem pc_add_two_toNat (pc : Word) : (pc + 2).toNat = (pc.toNat + 2) % 65536 := BitVec.toNat_add _ _

/-- The extra cycles of a taken branch (R134): 1 on the next instruction's page, 2 on another. -/
theorem one_add_pageCross (next target : Word) :
    (1 + if pageCross next target then 1 else 0) = if target.toNat / 256 = next.toNat / 256 then 1 else 2 := by
  rw [pageCross_eq]
  by_cases h : target.toNat / 256 = next.toNat / 256
  · simp [h]
  · simp [h, Ne.symm h]

/-- What the engine books after an effect that leaves cycles, coverage and parameters alone (R169, R170). -/
theorem book_eq_booked {i : Instr} {op : Byte} {s t : State} (hop : i.opcode = some op) (hcycles : t.cycles = s.cycles)
    (hcoverage : t.coverage = s.coverage) (hparams : t.params = s.params) (extra : Nat) :
    t.book op extra = Claims.booked i extra s t := by
  rw [Claims.booked, opcodeByte_of_opcode hop, ← hcycles, ← hcoverage, ← hparams]
  rfl

/-- Where a branch goes and what it books, by its condition. -/
theorem execBranch_eq_ite {i : Instr} {op : Byte} (hop : i.opcode = some op) {cond : Bool} {P : Prop} [Decidable P]
    (hcond : cond = true ↔ P) (b : Byte) (s : State) :
    execBranch i cond b s =
      if P then
        .next (Claims.booked i
          (if (BitVec.ofInt 16 (s.pc.toNat + 2 + b.toInt)).toNat / 256 = (s.pc.toNat + 2) % 65536 / 256 then 1 else 2) s
          { s with pc := BitVec.ofInt 16 (s.pc.toNat + 2 + b.toInt) })
      else .next (Claims.booked i 0 s { s with pc := BitVec.ofNat 16 ((s.pc.toNat + 2) % 65536) }) := by
  rw [← if_congr hcond rfl rfl, ← pc_add_two_toNat, ← relativeTarget_eq_ofInt, ← one_add_pageCross, BitVec.ofNat_toNat,
    BitVec.setWidth_eq]
  cases cond with
  | true => exact execBranch_next.mpr ⟨op, hop, (book_eq_booked hop rfl rfl rfl _).symm⟩
  | false => exact execBranch_next.mpr ⟨op, hop, (book_eq_booked hop rfl rfl rfl 0).symm⟩

/-- Settles O28: the eight branches differ in the opcode and the flag they test. -/
theorem branchesGoToTheRelativeTarget : Obligations.BranchesGoToTheRelativeTarget := by
  intro s b
  simp only [exec_bcc, execBcc, exec_bcs, execBcs, exec_beq, execBeq, exec_bmi, execBmi, exec_bne, execBne, exec_bpl,
    execBpl, exec_bvc, execBvc, exec_bvs, execBvs]
  refine ⟨⟨rfl, rfl, execBranch_eq_ite rfl ?_ b s⟩, ⟨rfl, rfl, execBranch_eq_ite rfl .rfl b s⟩,
    ⟨rfl, rfl, execBranch_eq_ite rfl .rfl b s⟩, ⟨rfl, rfl, execBranch_eq_ite rfl .rfl b s⟩,
    ⟨rfl, rfl, execBranch_eq_ite rfl ?_ b s⟩, ⟨rfl, rfl, execBranch_eq_ite rfl ?_ b s⟩,
    ⟨rfl, rfl, execBranch_eq_ite rfl ?_ b s⟩, ⟨rfl, rfl, execBranch_eq_ite rfl .rfl b s⟩⟩ <;>
    rw [Bool.not_eq_true']

/-! ## What an instruction costs (R89 to R91, R232, R233) -/

theorem mode_mem_modes_of_wf {i : Instr} (h : i.wf = true) : i.mode ∈ i.mnemonic.modes :=
  List.contains_iff_mem.mp (Bool.and_eq_true_iff.mp h).1

/-- The table by mnemonic and mode agrees with the summary by class. -/
theorem cycleCells_lookup_mode {i : Instr} (h : i.mode ∈ i.mnemonic.modes) :
    (i.mnemonic.cycleCells.lookup i.mode).getD ⟨0, .none⟩ = Claims.classRow i := by
  cases i with
  | adc o | and o | asl o | bit o | cmp o | cpx o | cpy o | dec o | eor o | inc o | jmp o | lda o | ldx o | ldy o | lsr o
  | ora o | rol o | ror o | sbc o | sta o | stx o | sty o =>
    unfold Claims.classRow
    simp only [Instr.mode, Instr.mnemonic] at h ⊢
    generalize o.mode = mode at h ⊢
    revert mode
    decide
  | _ => rfl

theorem nmosCycles_eq_classRow {i : Instr} {op : Byte} (hop : i.opcode = some op) : nmosCycles op = Claims.classRow i := by
  have hwf : i.wf = true := by rw [← isSome_opcode, hop]; rfl
  rw [nmosCycles, lookup_of_opcode hop]
  exact cycleCells_lookup_mode (mode_mem_modes_of_wf hwf)

/-- The extra cycles of a taken branch, 0 of everything else (R134). -/
def branchExtra (i : Instr) (s : State) : Nat :=
  if Claims.branchTaken i s then
    1 + if pageCross (s.pc + 2) (relativeTarget s.pc (Claims.branchOffset i)) then 1 else 0
  else 0

/-- The instruction `i` took `s` to `t` and added its row's base cycles, the page-cross cycle of R89 and the extra
cycles of a taken branch, under any CYCLE_TABLE. Instructions without an indexed operand cross no page. -/
def CostsItsRow (i : Instr) (s t : State) : Prop :=
  ∃ op, i.opcode = some op ∧ t.cycles = s.cycles +
    ((s.params.cycleRow op).base + (s.params.pageExtra op (s.resolve i.operand).crossed + branchExtra i s))

section
variable {i : Instr} {o : Operand} {s t : State}

@[simp] theorem pageExtra_false (c : Params) (op : Byte) : c.pageExtra op false = 0 := by simp [Params.pageExtra]

theorem branchExtra_of_not_taken (h : Claims.branchTaken i s = false) : branchExtra i s = 0 := by
  simp [branchExtra, h]

/-- An instruction that books its base cycles alone. -/
theorem costsItsRow_of_base {op : Byte} (hop : i.opcode = some op) (hc : (s.resolve i.operand).crossed = false)
    (hb : Claims.branchTaken i s = false) (ht : t.cycles = s.cycles + (s.params.cycleRow op).base) :
    CostsItsRow i s t :=
  ⟨op, hop, by rw [hc, pageExtra_false, branchExtra_of_not_taken hb, ht]; rfl⟩

theorem execImplied_costsItsRow {e : State → State} (h : execImplied i e s = .next t)
    (hcycles : (e s).cycles = s.cycles) (hparams : (e s).params = s.params) (hc : (s.resolve i.operand).crossed = false)
    (hb : Claims.branchTaken i s = false) : CostsItsRow i s t := by
  obtain ⟨op, hop, rfl⟩ := execImplied_next.mp h
  exact costsItsRow_of_base hop hc hb (by rw [advanceAfter_cycles, hcycles, hparams]; rfl)

/-- An instruction with an operand of its own: its page-cross cycle is charged by its row's penalty class (R89). -/
theorem advanceAfter_costsItsRow {op : Byte} {e : State → State} (hop : i.opcode = some op) (ho : i.operand = o)
    (hb : Claims.branchTaken i s = false) (hcycles : (e s).cycles = s.cycles) (hparams : (e s).params = s.params) :
    CostsItsRow i s (advanceAfter i op (s.params.pageExtra op (s.resolve o).crossed) e s) :=
  ⟨op, hop, by rw [ho, branchExtra_of_not_taken hb, advanceAfter_cycles, hcycles, hparams]; rfl⟩

theorem execRead_costsItsRow {e : Byte → State → State} (h : execRead i o e s = .next t) (ho : i.operand = o)
    (hb : Claims.branchTaken i s = false) (hcycles : ∀ v, (e v s).cycles = s.cycles)
    (hparams : ∀ v, (e v s).params = s.params) : CostsItsRow i s t := by
  obtain ⟨op, v, hop, -, rfl⟩ := execRead_next.mp h
  exact advanceAfter_costsItsRow hop ho hb (hcycles v) (hparams v)

theorem execStore_costsItsRow {v : Byte} (h : execStore i o v s = .next t) (ho : i.operand = o)
    (hb : Claims.branchTaken i s = false) : CostsItsRow i s t := by
  obtain ⟨op, u, hop, hu, rfl⟩ := execStore_next.mp h
  obtain ⟨hkeep, -, -, hcycles⟩ := storeOperand_untouched hu
  exact advanceAfter_costsItsRow hop ho hb hcycles hkeep.params

theorem execRmw_costsItsRow {f : Rmw} (h : execRmw i o f s = .next t) (ho : i.operand = o)
    (hb : Claims.branchTaken i s = false) : CostsItsRow i s t := by
  obtain ⟨op, v, u, hop, -, hu, rfl⟩ := execRmw_next.mp h
  obtain ⟨hkeep, -, -, hcycles⟩ := storeOperand_untouched hu
  exact advanceAfter_costsItsRow hop ho hb hcycles hkeep.params

theorem branchOffset_of_operand {op b : Byte} (hop : i.opcode = some op) (ho : i.operand = .relative b) :
    Claims.branchOffset i = b := by
  rw [Claims.branchOffset, encode_of_opcode hop, ho]
  rfl

theorem execBranch_costsItsRow {cond : Bool} {b : Byte} (h : execBranch i cond b s = .next t)
    (ho : i.operand = .relative b) (hb : Claims.branchTaken i s = cond) : CostsItsRow i s t := by
  obtain ⟨op, hop, rfl⟩ := execBranch_next.mp h
  have hc : (s.resolve i.operand).crossed = false := by rw [ho]; rfl
  refine ⟨op, hop, ?_⟩
  rw [hc, pageExtra_false, Nat.zero_add, branchExtra, hb, branchOffset_of_operand hop ho]
  cases cond <;> rfl

/-- A VSR check that goes on keeps cycles and parameters, whatever its callback does (R175). -/
theorem vsrCheck_keeps {target : Word} {isJsr : Bool} {u : State} (h : vsrCheck target isJsr s = .next u) :
    u.cycles = s.cycles ∧ u.params = s.params := by
  unfold vsrCheck at h
  split at h
  · cases h
    exact ⟨rfl, rfl⟩
  · split at h
    · next v hv =>
      obtain ⟨hkeep, hcycles, -⟩ := vsrActs_next hv
      cases h
      cases isJsr <;> exact ⟨hcycles, hkeep.params⟩
    · cases h
    · cases h

theorem bookAfterVsr_cycles {op : Byte} {target : Word} {isJsr : Bool} (h : bookAfterVsr op target isJsr s = .next t) :
    t.cycles = s.cycles + (s.params.cycleRow op).base := by
  unfold bookAfterVsr at h
  split at h
  · next u hu =>
    obtain ⟨hcycles, hparams⟩ := vsrCheck_keeps hu
    cases h
    rw [book_cycles, hcycles, hparams]
    rfl
  · cases h
  · cases h

/-- Every legal instruction that completes, with the callback it may invoke, adds exactly these cycles. -/
theorem exec_costsItsRow (hm : i.mnemonic ≠ .illegal) (h : exec i s = .next t) : CostsItsRow i s t := by
  cases i with
  | adc o | sbc o | and o | ora o | eor o | cmp o | cpx o | cpy o | bit o | lda o | ldx o | ldy o =>
    exact execRead_costsItsRow h rfl rfl (fun _ => rfl) fun _ => rfl
  | sta o | stx o | sty o => exact execStore_costsItsRow h rfl rfl
  | asl o | lsr o | rol o | ror o | inc o | dec o =>
    simp only [exec_asl, execAsl, exec_lsr, execLsr, exec_rol, execRol, exec_ror, execRor, exec_inc, execInc, exec_dec,
      execDec] at h
    exact execRmw_costsItsRow h rfl rfl
  | bcc b | bcs b | beq b | bmi b | bne b | bpl b | bvc b | bvs b => exact execBranch_costsItsRow h rfl rfl
  | jmp o =>
    rw [exec_jmp, execJmp] at h
    obtain ⟨op, hop, h⟩ := withOpcode_next.mp h
    have hc : (s.resolve o).crossed = false := by
      cases o with
      | absoluteX _ | absoluteY _ | indirectYIndexed _ => cases hop
      | _ => rfl
    split at h
    · exact costsItsRow_of_base hop hc rfl (by simpa using bookAfterVsr_cycles h)
    · cases h
  | jsr target =>
    rw [exec_jsr, execJsr] at h
    obtain ⟨op, hop, h⟩ := withOpcode_next.mp h
    exact costsItsRow_of_base hop rfl rfl (by simpa using bookAfterVsr_cycles h)
  | rts | rti | brk =>
    simp only [exec_rts, execRts, exec_rti, execRti, exec_brk, execBrk, withOpcode_next] at h
    obtain ⟨op, hop, h⟩ := h
    cases h
    exact costsItsRow_of_base hop rfl rfl (by simp)
  | illegal _ => exact absurd rfl hm
  | _ => exact execImplied_costsItsRow h rfl rfl rfl rfl

/-- Only a row of class branch has a taken branch. -/
theorem branchTaken_of_penalty_ne (h : (Claims.classRow i).penalty ≠ .branch) : Claims.branchTaken i s = false := by
  cases i with
  | bcc _ | bcs _ | beq _ | bmi _ | bne _ | bpl _ | bvc _ | bvs _ => exact absurd rfl h
  | _ => rfl

/-- With no rows of its own, CYCLE_TABLE is the NMOS table. -/
theorem cycleRow_eq_classRow {op : Byte} (hop : i.opcode = some op) (h : s.params.cycleTable = []) :
    s.params.cycleRow op = Claims.classRow i := by
  rw [Params.cycleRow, h, nmosCycles_eq_classRow hop]
  rfl

end

/-- Settles O36: every instruction costs its row, and the row's class says which extra cycles it can have. -/
theorem cyclesFollowTheClassSummary : Obligations.CyclesFollowTheClassSummary := by
  refine ⟨fun i hwf => ?_, fun i s t hwf htable h => ?_⟩
  · obtain ⟨op, hop⟩ := Option.isSome_iff_exists.mp ((isSome_opcode i).trans hwf)
    rw [opcodeByte_of_opcode hop, nmosCycles_eq_classRow hop]
  · by_cases hm : i.mnemonic = .illegal
    · obtain ⟨op, -, ⟨hne, -⟩ | ⟨rfl, rfl⟩⟩ := exec_next h
      · exact absurd hm hne
      · rfl
    · obtain ⟨op, hop, hcycles⟩ := exec_costsItsRow hm h
      rw [hcycles, Params.pageExtra, cycleRow_eq_classRow hop htable, Nat.add_assoc]
      cases hclass : (Claims.classRow i).penalty with
      | branch => simp [branchExtra, one_add_pageCross]
      | none | page =>
        have hno : branchExtra i s = 0 := branchExtra_of_not_taken (branchTaken_of_penalty_ne (by simp [hclass]))
        simp [hno]

end Sys2Proof.Machine

/-! # Proofs of the statements on loads, stores and transfers (41_load_store_transfer.md). The lemmas above the three
settling theorems are about the shared operations (R89, R92, R106, R168 to R170) and serve every instruction that leaves
PC to the engine. -/

namespace Sys2Proof.Machine

/-! ## N and Z of a byte (R106) -/

/-- Writing N, then Z, clears both bits and sets those that are on. -/
theorem putFlag_z_putFlag_n (n z : Bool) (p : Byte) :
    putFlag .z z (putFlag .n n p) = (p &&& 0x7D) ||| Claims.bitAt 7 n ||| Claims.bitAt 1 z := by
  revert p
  cases n <;> cases z <;> decide

theorem putNZ_eq_withNZ (v p : Byte) : putNZ v p = Claims.withNZ v p := by
  rw [putNZ, putFlag_z_putFlag_n, Claims.withNZ, BitVec.msb_eq_getLsbD_last, beq_eq_decide]

section
variable (s : State) (v : Byte)

theorem setA_setNZ : (s.setA v).setNZ v = { s with a := v, p := Claims.withNZ v s.p } := by
  rw [← putNZ_eq_withNZ]
  rfl

theorem setX_setNZ : (s.setX v).setNZ v = { s with x := v, p := Claims.withNZ v s.p } := by
  rw [← putNZ_eq_withNZ]
  rfl

theorem setY_setNZ : (s.setY v).setNZ v = { s with y := v, p := Claims.withNZ v s.p } := by
  rw [← putNZ_eq_withNZ]
  rfl

end

/-! ## The encodings of a mnemonic with several modes (R66) -/

/-- A mnemonic's list names no mode twice, so each entry is the opcode of its mode. -/
theorem opcodeOf_of_mem_opcodes (mn : Mnemonic) : ∀ e ∈ mn.opcodes, opcodeOf mn e.1 = some e.2 := by
  cases mn <;> decide

theorem head?_encode (i : Instr) : (encode i).head? = i.opcode := by
  rw [encode]
  cases i.opcode <;> rfl

/-- An instruction of a mnemonic with operands is encodable in exactly the modes of the mnemonic's list. -/
theorem encodedAs_opcodes {mk : Operand → Instr} {mn : Mnemonic} (hne : mn ≠ .illegal)
    (hmn : ∀ o, (mk o).mnemonic = mn) (hmode : ∀ o, (mk o).mode = o.mode) : Claims.encodedAs mk mn.opcodes := by
  intro o
  have hop : (mk o).opcode = opcodeOf mn o.mode := by
    rw [opcode_eq_opcodeOf (by rwa [hmn]), hmn, hmode]
  refine ⟨?_, fun op hmem => ?_⟩
  · rw [← isSome_opcode, hop, List.mem_map]
    constructor
    · intro hsome
      obtain ⟨op, h⟩ := Option.isSome_iff_exists.mp hsome
      exact ⟨_, mem_of_lookup_eq_some h, rfl⟩
    · rintro ⟨e, hmem, he⟩
      rw [← he, opcodeOf_of_mem_opcodes mn e hmem]
      rfl
  · rw [head?_encode, hop, opcodeOf_of_mem_opcodes mn _ hmem]

/-! ## PC past the instruction, and the booking (R168 to R170) -/

/-- `t` has the cycles, coverage and parameters of `s`: the engine has booked nothing on the way from `s` to `t`. -/
structure SameBooks (s t : State) : Prop where
  cycles : t.cycles = s.cycles
  coverage : t.coverage = s.coverage
  params : t.params = s.params

theorem length_encode {i : Instr} {op : Byte} (hop : i.opcode = some op) : (encode i).length = i.length := by
  rw [encode_of_opcode hop, List.length_cons, length_operand_bytes, Instr.length]
  cases i <;> rfl

/-- An effect that books nothing itself, with PC past the instruction and the engine's booking. -/
theorem advanceAfter_eq_advanced {i : Instr} {op : Byte} {e : State → State} {s : State} (hop : i.opcode = some op)
    (he : SameBooks s (e s)) (extra : Nat) : advanceAfter i op extra e s = Claims.advanced i extra s (e s) := by
  rw [advanceAfter, Claims.advanced, length_encode hop]
  exact book_eq_booked (t := (e s).setPc (s.pc + BitVec.ofNat 16 i.length)) hop he.cycles he.coverage he.params extra

theorem exists_opcode {i : Instr} (hwf : i.wf = true) : ∃ op, i.opcode = some op :=
  Option.isSome_iff_exists.mp ((isSome_opcode i).trans hwf)

theorem crossExtra_of_opcode {i : Instr} {op : Byte} (hop : i.opcode = some op) (o : Operand) (s : State) :
    Claims.crossExtra i o s = s.params.pageExtra op (s.resolve o).crossed := by
  rw [Claims.crossExtra, opcodeByte_of_opcode hop]

/-- A row that is not of class page charges nothing for a page cross (R90, R91). -/
theorem crossExtra_eq_zero {i : Instr} {s : State} (hwf : i.wf = true) (htable : s.params.cycleTable = [])
    (hclass : (Claims.classRow i).penalty ≠ .page) (o : Operand) : Claims.crossExtra i o s = 0 := by
  obtain ⟨op, hop⟩ := exists_opcode hwf
  rw [crossExtra_of_opcode hop, Params.pageExtra, cycleRow_eq_classRow hop htable]
  exact if_neg fun h => hclass h.1

/-! ## What implied, reading and storing instructions answer (R92) -/

theorem execImplied_eq_advanced {i : Instr} {op : Byte} {e : State → State} {s : State} (hop : i.opcode = some op)
    (he : SameBooks s (e s)) : execImplied i e s = .next (Claims.advanced i 0 s (e s)) :=
  execImplied_next.mpr ⟨op, hop, (advanceAfter_eq_advanced hop he 0).symm⟩

section
variable {i : Instr} {o : Operand} (s : State) (hwf : i.wf = true) (hmode : i.mode = o.mode)
include hwf hmode

/-- An instruction whose mnemonic has only modes with an operand value has one. -/
theorem exists_operandValue (hmodes : i.mnemonic.modes.all (· ∉ [.implied, .relative, .indirect]) = true) :
    ∃ v, s.operandValue o = some v := by
  refine Option.ne_none_iff_exists'.mp fun hnone => ?_
  have hmem : o.mode ∈ i.mnemonic.modes := hmode ▸ mode_mem_modes_of_wf hwf
  exact of_decide_eq_true (List.all_eq_true.mp hmodes _ hmem) (operandValue_eq_none_iff.mp hnone)

/-- An instruction whose mnemonic has only modes with a data address has one. -/
theorem exists_dataAddress
    (hmodes : i.mnemonic.modes.all (· ∉ [.implied, .accumulator, .immediate, .relative, .indirect]) = true) :
    ∃ ea, s.dataAddress o = some ea := by
  refine Option.ne_none_iff_exists'.mp fun hnone => ?_
  have hmem : o.mode ∈ i.mnemonic.modes := hmode ▸ mode_mem_modes_of_wf hwf
  exact of_decide_eq_true (List.all_eq_true.mp hmodes _ hmem) (dataAddress_eq_none_iff.mp hnone)

end

theorem execRead_eq_advanced {i : Instr} {o : Operand} {e : Byte → State → State} {s : State} {v : Byte}
    (hwf : i.wf = true) (hv : s.operandValue o = some v) (he : SameBooks s (e v s)) :
    execRead i o e s = .next (Claims.advanced i (Claims.crossExtra i o s) s (e v s)) := by
  obtain ⟨op, hop⟩ := exists_opcode hwf
  rw [crossExtra_of_opcode hop, ← advanceAfter_eq_advanced hop he]
  exact execRead_next.mpr ⟨op, v, hop, hv, rfl⟩

theorem execStore_eq_advanced {i : Instr} {o : Operand} {s : State} {ea : Word} (hwf : i.wf = true)
    (hea : s.dataAddress o = some ea) (v : Byte) :
    execStore i o v s = .next (Claims.advanced i (Claims.crossExtra i o s) s (s.write ea v)) := by
  obtain ⟨op, hop⟩ := exists_opcode hwf
  rw [crossExtra_of_opcode hop, execStore_next]
  exact ⟨op, _, hop, storeOperand_of_dataAddress hea v, (advanceAfter_eq_advanced hop ⟨rfl, rfl, rfl⟩ _).symm⟩

/-- A store writes its target once and does not read it (R52, R92). -/
theorem storeAccesses_of_dataAddress {o : Operand} {s : State} {ea : Word} (hea : s.dataAddress o = some ea) (v : Byte) :
    s.storeAccesses o v = s.pointerAccesses o ++ [.write ea v] := by
  rw [State.storeAccesses, State.dataWrite, hea]

/-! ## Loads (R94 to R96) -/

/-- Settles O14: the three loads differ in the register they set. -/
theorem loadsPutTheOperandInTheRegister : Obligations.LoadsPutTheOperandInTheRegister := by
  refine ⟨⟨encodedAs_opcodes (mn := .lda) (by decide) (fun _ => rfl) fun _ => rfl,
    encodedAs_opcodes (mn := .ldx) (by decide) (fun _ => rfl) fun _ => rfl,
    encodedAs_opcodes (mn := .ldy) (by decide) (fun _ => rfl) fun _ => rfl⟩,
    fun o s hwf => ?_, fun o s hwf => ?_, fun o s hwf => ?_⟩ <;>
    obtain ⟨v, hv⟩ := exists_operandValue s hwf rfl rfl
  · refine ⟨v, hv, ?_⟩
    rw [← setA_setNZ]
    exact execRead_eq_advanced hwf hv ⟨rfl, rfl, rfl⟩
  · refine ⟨v, hv, ?_⟩
    rw [← setX_setNZ]
    exact execRead_eq_advanced hwf hv ⟨rfl, rfl, rfl⟩
  · refine ⟨v, hv, ?_⟩
    rw [← setY_setNZ]
    exact execRead_eq_advanced hwf hv ⟨rfl, rfl, rfl⟩

/-! ## Stores (R97 to R99) -/

/-- A store's row is of class none in every mode (R90). -/
theorem classRow_store_penalty (o : Operand) :
    (Claims.classRow (.sta o)).penalty = .none ∧ (Claims.classRow (.stx o)).penalty = .none ∧
      (Claims.classRow (.sty o)).penalty = .none := by
  cases o <;> exact ⟨rfl, rfl, rfl⟩

/-- What a store leaves: one byte at its data address, and every other byte as it was. -/
theorem execStore_stores {i : Instr} {o : Operand} {s : State} (hwf : i.wf = true) (hmode : i.mode = o.mode)
    (hmodes : i.mnemonic.modes.all (· ∉ [.implied, .accumulator, .immediate, .relative, .indirect]) = true) (v : Byte) :
    ∃ ea, s.dataAddress o = some ea ∧
      (s.mem.wf = true → ∀ a : Word, (s.write ea v).read a = if a = ea then v else s.read a) ∧
      execStore i o v s = .next (Claims.advanced i (Claims.crossExtra i o s) s (s.write ea v)) := by
  obtain ⟨ea, hea⟩ := exists_dataAddress s hwf hmode hmodes
  exact ⟨ea, hea, fun hmem a => read_write s hmem ea a v, execStore_eq_advanced hwf hea v⟩

/-- Settles O15: the three stores differ in the register they store. -/
theorem storesWriteTheRegisterAtTheAddress : Obligations.StoresWriteTheRegisterAtTheAddress := by
  refine ⟨⟨encodedAs_opcodes (mn := .sta) (by decide) (fun _ => rfl) fun _ => rfl,
    encodedAs_opcodes (mn := .stx) (by decide) (fun _ => rfl) fun _ => rfl,
    encodedAs_opcodes (mn := .sty) (by decide) (fun _ => rfl) fun _ => rfl⟩,
    fun o s hwf => execStore_stores hwf rfl rfl s.a, fun o s hwf => execStore_stores hwf rfl rfl s.x,
    fun o s hwf => execStore_stores hwf rfl rfl s.y, fun o s htable => ?_, fun o s ea hea => ?_⟩
  · obtain ⟨hsta, hstx, hsty⟩ := classRow_store_penalty o
    exact ⟨fun hwf => crossExtra_eq_zero hwf htable (by simp [hsta]) o,
      fun hwf => crossExtra_eq_zero hwf htable (by simp [hstx]) o,
      fun hwf => crossExtra_eq_zero hwf htable (by simp [hsty]) o⟩
  · exact ⟨storeAccesses_of_dataAddress hea s.a, storeAccesses_of_dataAddress hea s.x,
      storeAccesses_of_dataAddress hea s.y⟩

/-! ## Transfers (R100 to R105) -/

/-- Settles O16: five transfers set N and Z of the byte moved; TXS moves it alone. -/
theorem transfersCopyARegister : Obligations.TransfersCopyARegister := by
  refine ⟨⟨rfl, rfl, rfl, rfl, rfl, rfl⟩, fun s => ?_, fun s => ?_, fun s => ?_, fun s => ?_, fun s => ?_, fun s => ?_⟩
  · rw [exec_tax, execTax, ← setX_setNZ]
    exact execImplied_eq_advanced rfl ⟨rfl, rfl, rfl⟩
  · rw [exec_tay, execTay, ← setY_setNZ]
    exact execImplied_eq_advanced rfl ⟨rfl, rfl, rfl⟩
  · rw [exec_txa, execTxa, ← setA_setNZ]
    exact execImplied_eq_advanced rfl ⟨rfl, rfl, rfl⟩
  · rw [exec_tya, execTya, ← setA_setNZ]
    exact execImplied_eq_advanced rfl ⟨rfl, rfl, rfl⟩
  · rw [exec_tsx, execTsx, ← setX_setNZ]
    exact execImplied_eq_advanced rfl ⟨rfl, rfl, rfl⟩
  · rw [exec_txs, execTxs]
    exact execImplied_eq_advanced rfl ⟨rfl, rfl, rfl⟩

end Sys2Proof.Machine

/-! # Proofs of the statements on arithmetic and logic (42_arith_logic.md): the status bytes of R106, R107 and R112, the
ALU results of R108 to R111 as numbers, and reading and read-modify-write instructions. -/

namespace Sys2Proof.Machine

/-! ## Differences and sums modulo 256 as numbers (R7) -/

theorem sub_eq_ofNat (x y : Byte) : x - y = BitVec.ofNat 8 (256 + x.toNat - y.toNat) := by
  have hy := y.isLt
  rw [BitVec.sub_def, ← Nat.sub_add_comm (by omega)]

theorem add_one_eq_ofNat (v : Byte) : v + 1 = BitVec.ofNat 8 (v.toNat + 1) := rfl

theorem sub_one_eq_ofNat (v : Byte) : v - 1 = BitVec.ofNat 8 (v.toNat + 255) := by
  rw [BitVec.sub_def, Nat.add_comm]
  rfl

/-! ## Status bytes with several flags written (R26, R107, R108, R112) -/

/-- Writing a flag clears its bit and sets it when the flag is on. -/
theorem putFlag_eq (f : Flag) (on : Bool) (p : Byte) : putFlag f on p = p &&& ~~~f.mask ||| Claims.bitAt f.bit on := by
  cases on with
  | false => exact BitVec.or_zero.symm
  | true =>
    have hbit : Claims.bitAt f.bit true = f.mask := by cases f <;> rfl
    have hor : p ||| f.mask = p &&& ~~~f.mask ||| f.mask := by
      ext k
      simp only [BitVec.getElem_or, BitVec.getElem_and, BitVec.getElem_not]
      cases p[k] <;> cases f.mask[k] <;> rfl
    rwa [hbit]

/-- Writing flags one after the other: the masks meet on `p`, and what is left of the bits set does not depend on `p`. -/
theorem putFlag_and_or (f : Flag) (on : Bool) (p mask set : Byte) :
    putFlag f on (p &&& mask ||| set) = p &&& (mask &&& ~~~f.mask) ||| (set &&& ~~~f.mask ||| Claims.bitAt f.bit on) := by
  rw [putFlag_eq, BitVec.and_or_distrib_right, BitVec.and_assoc, BitVec.or_assoc]

/-! The flags that one operation writes, in its own order, as the mask of the bits it keeps and the bits it sets. -/

theorem putFlag_n_v_z_c (n v z c : Bool) (p : Byte) :
    putFlag .n n (putFlag .v v (putFlag .z z (putFlag .c c p))) = Claims.withNVZC n v z c p := by
  rw [putFlag_eq .c, putFlag_and_or, putFlag_and_or, putFlag_and_or, Claims.withNVZC]
  simp only [BitVec.or_assoc (p &&& _)]
  refine congrArg (p &&& 0x3C ||| ·) ?_
  revert n v z c
  decide

theorem putFlag_z_n_c (n z c : Bool) (p : Byte) :
    putFlag .z z (putFlag .n n (putFlag .c c p)) =
      (p &&& 0x7C) ||| Claims.bitAt 7 n ||| Claims.bitAt 1 z ||| Claims.bitAt 0 c := by
  rw [putFlag_eq .c, putFlag_and_or, putFlag_and_or]
  simp only [BitVec.or_assoc (p &&& _)]
  refine congrArg (p &&& 0x7C ||| ·) ?_
  revert n z c
  decide

theorem putFlag_z_v_n (n v z : Bool) (p : Byte) :
    putFlag .z z (putFlag .v v (putFlag .n n p)) =
      (p &&& 0x3D) ||| Claims.bitAt 7 n ||| Claims.bitAt 6 v ||| Claims.bitAt 1 z := by
  rw [putFlag_eq .n, putFlag_and_or, putFlag_and_or]
  simp only [BitVec.or_assoc (p &&& _)]
  refine congrArg (p &&& 0x3D ||| ·) ?_
  revert n v z
  decide

theorem putFlags_eq_withNVZC (r : AluResult) (p : Byte) : r.putFlags p = Claims.withNVZC r.n r.v r.z r.c p :=
  putFlag_n_v_z_c ..

theorem putAlu_eq (r : AluResult) (s : State) :
    s.putAlu r = { s with a := r.value, p := Claims.withNVZC r.n r.v r.z r.c s.p } := by
  rw [← putFlags_eq_withNVZC]
  rfl

/-- `Compare(reg, val)` writes C first, so its bit stands under N and Z of the difference. -/
theorem putCompare_eq_withNZC (reg val p : Byte) :
    putCompare reg val p =
      Claims.withNZC (BitVec.ofNat 8 (256 + reg.toNat - val.toNat)) (decide (val.toNat ≤ reg.toNat)) p := by
  rw [putCompare, putNZ, putFlag_z_n_c, Claims.withNZC, ← sub_eq_ofNat, BitVec.msb_eq_getLsbD_last, beq_eq_decide]

theorem putBitTest_eq (a v p : Byte) :
    putBitTest a v p = (p &&& 0x3D) ||| Claims.bitAt 7 (v.getLsbD 7) ||| Claims.bitAt 6 (v.getLsbD 6) |||
      Claims.bitAt 1 (decide (v &&& a = 0)) := by
  rw [putBitTest, putFlag_z_v_n, beq_eq_decide]

/-! ## ALU results as numbers (R108 to R111) -/

theorem numBit_eq_testBit (n t : Nat) : Claims.numBit n t = t.testBit n := Nat.testBit_eq_decide_div_mod_eq.symm

theorem msb_ofNat_eq_numBit (t : Nat) : (BitVec.ofNat 8 t).msb = Claims.numBit 7 t := by
  rw [numBit_eq_testBit, BitVec.msb_eq_getLsbD_last, BitVec.getLsbD_ofNat]
  rfl

theorem signedOverflow_eq_overflow7 (a v : Byte) (t : Nat) :
    signedOverflow a v (BitVec.ofNat 8 t) = Claims.overflow7 a v t := by
  rw [signedOverflow_eq, msb_ofNat_eq_numBit, BitVec.msb_eq_getLsbD_last, BitVec.msb_eq_getLsbD_last]
  rfl

theorem ofNat_beq_zero (t : Nat) : (BitVec.ofNat 8 t == 0) = decide (t % 256 = 0) := by
  rw [beq_eq_decide, decide_eq_decide, ← BitVec.toNat_inj, BitVec.toNat_ofNat]
  rfl

/-- The byte whose difference from 255 the statements name is the complement. -/
theorem not_eq_sub (v : Byte) : ~~~v = 255 - v := (BitVec.allOnes_sub_eq_not v).symm

theorem adcBinary_eq (a v : Byte) (c : Bool) :
    let t := a.toNat + v.toNat + c.toNat
    adcBinary a v c = ⟨BitVec.ofNat 8 t, Claims.numBit 7 t, Claims.overflow7 a v t, decide (t % 256 = 0),
      decide (t / 256 ≠ 0)⟩ := by
  intro t
  rw [adcBinary, msb_ofNat_eq_numBit, signedOverflow_eq_overflow7, ofNat_beq_zero]

/-- C after `SbcBinary` is the carry out of the sum with the complement. -/
theorem sbcBinary_eq (a v : Byte) (c : Bool) :
    let t := a.toNat + (255 - v.toNat) + c.toNat
    sbcBinary a v c = ⟨BitVec.ofNat 8 t, Claims.numBit 7 t, Claims.overflow7 a (255 - v) t, decide (t % 256 = 0),
      decide (256 ≤ t)⟩ := by
  intro t
  have hcarry : t / 256 ≠ 0 ↔ 256 ≤ t := by omega
  have hnot : (~~~v).toNat = 255 - v.toNat := BitVec.toNat_not
  rw [sbcBinary, adcBinary_eq, hnot, not_eq_sub]
  simp only [decide_eq_decide.mpr hcarry, t]

/-- The carry out of `a + (255 - v) + c` says that there is no borrow (R110). -/
theorem carry_iff_noBorrow (a v : Byte) (c : Bool) :
    256 ≤ a.toNat + (255 - v.toNat) + c.toNat ↔ v.toNat + (1 - c.toNat) ≤ a.toNat := by
  have hc : c.toNat ≤ 1 := c.toNat_le
  have hv := v.isLt
  omega

/-- A byte with its low digit cleared. -/
theorem div_sixteen_mul (n : Nat) : n / 16 * 16 = n - n % 16 := by omega

theorem adcDecimal_eq (a v : Byte) (c : Bool) :
    let al₀ := a.toNat % 16 + v.toNat % 16 + c.toNat
    let al := if 10 ≤ al₀ then (al₀ + 6) % 16 + 16 else al₀
    let t := (a.toNat - a.toNat % 16) + (v.toNat - v.toNat % 16) + al
    let t' := if 160 ≤ t then t + 96 else t
    adcDecimal a v c = ⟨BitVec.ofNat 8 t', Claims.numBit 7 t, Claims.overflow7 a v t,
      decide ((a.toNat + v.toNat + c.toNat) % 256 = 0), decide (256 ≤ t')⟩ := by
  intro al₀ al t t'
  rw [adcDecimal, signedOverflow_eq_overflow7, ofNat_beq_zero, ← numBit_eq_testBit, div_sixteen_mul, div_sixteen_mul]
  rfl

theorem sbcDecimalValue_eq (a v : Byte) (c : Bool) :
    let al₀ : Int := (a.toNat % 16 : Nat) - (v.toNat % 16 : Nat) + (c.toNat : Int) - 1
    let al : Int := if al₀ < 0 then (al₀ - 6) % 16 - 16 else al₀
    let t : Int := ((a.toNat - a.toNat % 16 : Nat) : Int) - ((v.toNat - v.toNat % 16 : Nat) : Int) + al
    sbcDecimalValue a v c = BitVec.ofInt 8 (if t < 0 then t - 96 else t) := by
  intro al₀ al t
  rw [sbcDecimalValue, div_sixteen_mul, div_sixteen_mul]
  rfl

/-! ## What reading and read-modify-write instructions answer (R92) -/

/-- An encodable reading instruction has an operand value `v` and leaves its effect `u v`, advanced and booked. -/
theorem execRead_completes {i : Instr} {o : Operand} {e : Byte → State → State} {s : State} {u : Byte → State}
    (hwf : i.wf = true) (hmode : i.mode = o.mode)
    (hmodes : i.mnemonic.modes.all (· ∉ [.implied, .relative, .indirect]) = true) (he : ∀ v, e v s = u v)
    (hbooks : ∀ v, SameBooks s (u v)) :
    ∃ v, s.operandValue o = some v ∧
      execRead i o e s = .next (Claims.advanced i (Claims.crossExtra i o s) s (u v)) := by
  obtain ⟨v, hv⟩ := exists_operandValue s hwf hmode hmodes
  refine ⟨v, hv, ?_⟩
  rw [← he]
  exact execRead_eq_advanced hwf hv (he v ▸ hbooks v)

theorem execRmw_eq_advanced {i : Instr} {o : Operand} {f : Rmw} {s u : State} {v : Byte} (hwf : i.wf = true)
    (hv : s.operandValue o = some v) (hu : s.storeOperand o (f v s.p).1 = some u) :
    execRmw i o f s = .next (Claims.advanced i (Claims.crossExtra i o s) s { u with p := (f v s.p).2 }) := by
  obtain ⟨op, hop⟩ := exists_opcode hwf
  have hbooks : SameBooks s (u.updateP fun _ => (f v s.p).2) := by
    obtain ⟨-, rfl⟩ | ⟨_, -, -, rfl⟩ := storeOperand_some hu <;> exact ⟨rfl, rfl, rfl⟩
  rw [crossExtra_of_opcode hop, execRmw_next]
  refine ⟨op, v, u, hop, hv, hu, Eq.symm ?_⟩
  exact advanceAfter_eq_advanced (e := fun _ => u.updateP fun _ => (f v s.p).2) hop hbooks _

/-- A read-modify-write of memory reads its target once and writes it once (R52, R92). -/
theorem rmwAccesses_of_dataAddress {o : Operand} {s : State} {ea : Word} (hea : s.dataAddress o = some ea) (f : Rmw) :
    s.rmwAccesses o f = s.pointerAccesses o ++ [.read ea, .write ea (f (s.read ea) s.p).1] := by
  simp only [State.rmwAccesses, State.dataRead, State.dataWrite, operandValue_of_dataAddress hea, hea,
    List.append_assoc]
  rfl

/-! ## ADC and SBC (R108 to R111, R114, R115) -/

/-- Settles O17: the binary sum and its flags as numbers. -/
theorem adcBinaryAddsWithCarry : Obligations.AdcBinaryAddsWithCarry := by
  refine ⟨encodedAs_opcodes (mn := .adc) (by decide) (fun _ => rfl) fun _ => rfl, fun o s hwf hd => ?_⟩
  refine execRead_completes hwf rfl rfl (fun v => ?_) fun _ => ⟨rfl, rfl, rfl⟩
  rw [hd, if_neg Bool.false_ne_true, putAlu_eq, adcBinary_eq]

/-- Settles O18: the two digit corrections as numbers. -/
theorem adcDecimalCorrectsEachDigit : Obligations.AdcDecimalCorrectsEachDigit := by
  intro o s hwf hd
  refine execRead_completes hwf rfl rfl (fun v => ?_) fun _ => ⟨rfl, rfl, rfl⟩
  rw [hd, if_pos rfl, putAlu_eq, adcDecimal_eq]

/-- Settles O19: `SbcBinary` adds the complement, and its carry is the absence of a borrow. -/
theorem sbcBinarySubtractsWithBorrow : Obligations.SbcBinarySubtractsWithBorrow := by
  refine ⟨encodedAs_opcodes (mn := .sbc) (by decide) (fun _ => rfl) fun _ => rfl, fun o s hwf hd => ?_⟩
  refine execRead_completes hwf rfl rfl (fun v => ?_) fun _ => ⟨rfl, rfl, rfl⟩
  rw [hd, if_neg Bool.false_ne_true, putAlu_eq, sbcBinary_eq, ← decide_eq_decide.mpr (carry_iff_noBorrow ..)]

/-- Settles O20: the corrected difference replaces the value of `SbcBinary` and keeps its flags. -/
theorem sbcDecimalSubtractsDigits : Obligations.SbcDecimalSubtractsDigits := by
  intro o s hwf hd
  refine execRead_completes hwf rfl rfl (fun v => ?_) fun _ => ⟨rfl, rfl, rfl⟩
  rw [hd, if_pos rfl, putAlu_eq, sbcDecimal, sbcBinary_eq, sbcDecimalValue_eq]

/-! ## Logic, comparison and bit test (R107, R112, R116 to R122) -/

/-- Settles O22: the three operations differ in the byte they put in A. -/
theorem logicOperationsCombineWithA : Obligations.LogicOperationsCombineWithA :=
  ⟨⟨encodedAs_opcodes (mn := .and) (by decide) (fun _ => rfl) fun _ => rfl,
    encodedAs_opcodes (mn := .ora) (by decide) (fun _ => rfl) fun _ => rfl,
    encodedAs_opcodes (mn := .eor) (by decide) (fun _ => rfl) fun _ => rfl⟩,
    fun _ s hwf => execRead_completes hwf rfl rfl (fun _ => setA_setNZ s _) fun _ => ⟨rfl, rfl, rfl⟩,
    fun _ s hwf => execRead_completes hwf rfl rfl (fun _ => setA_setNZ s _) fun _ => ⟨rfl, rfl, rfl⟩,
    fun _ s hwf => execRead_completes hwf rfl rfl (fun _ => setA_setNZ s _) fun _ => ⟨rfl, rfl, rfl⟩⟩

theorem updateP_putCompare (s : State) (reg v : Byte) :
    s.updateP (putCompare reg v) = { s with
      p := Claims.withNZC (BitVec.ofNat 8 (256 + reg.toNat - v.toNat)) (decide (v.toNat ≤ reg.toNat)) s.p } := by
  rw [State.updateP, putCompare_eq_withNZC]

/-- Settles O23: the three comparisons differ in the register they compare. -/
theorem comparesSetFlagsOnly : Obligations.ComparesSetFlagsOnly :=
  ⟨⟨encodedAs_opcodes (mn := .cmp) (by decide) (fun _ => rfl) fun _ => rfl,
    encodedAs_opcodes (mn := .cpx) (by decide) (fun _ => rfl) fun _ => rfl,
    encodedAs_opcodes (mn := .cpy) (by decide) (fun _ => rfl) fun _ => rfl⟩,
    fun _ s hwf => execRead_completes hwf rfl rfl (updateP_putCompare s s.a) fun _ => ⟨rfl, rfl, rfl⟩,
    fun _ s hwf => execRead_completes hwf rfl rfl (updateP_putCompare s s.x) fun _ => ⟨rfl, rfl, rfl⟩,
    fun _ s hwf => execRead_completes hwf rfl rfl (updateP_putCompare s s.y) fun _ => ⟨rfl, rfl, rfl⟩⟩

/-- Settles O24: the three flags come from the operand and its AND with A. -/
theorem bitTestsMemoryAgainstA : Obligations.BitTestsMemoryAgainstA := by
  refine ⟨encodedAs_opcodes (mn := .bit) (by decide) (fun _ => rfl) fun _ => rfl, fun o s hwf => ?_⟩
  refine execRead_completes hwf rfl rfl (fun v => ?_) fun _ => ⟨rfl, rfl, rfl⟩
  rw [State.updateP, putBitTest_eq]

/-! ## Counting in memory and in the index registers (R123 to R128) -/

/-- The rows of INC and DEC are of class none in every mode (R91). -/
theorem classRow_count_penalty (o : Operand) :
    (Claims.classRow (.inc o)).penalty = .none ∧ (Claims.classRow (.dec o)).penalty = .none := by
  cases o <;> exact ⟨rfl, rfl⟩

/-- What INC and DEC answer: a memory operand, the counted byte `g v` stored in its place, N and Z of it. -/
theorem execRmw_counts {i : Instr} {o : Operand} {g : Byte → Byte} {s : State} (hwf : i.wf = true)
    (hmode : i.mode = o.mode)
    (hmodes : i.mnemonic.modes.all (· ∉ [.implied, .accumulator, .immediate, .relative, .indirect]) = true) :
    ∃ v, s.operandValue o = some v ∧ ∃ u, s.storeOperand o (g v) = some u ∧
      execRmw i o (fun v p => (g v, putNZ (g v) p)) s =
        .next (Claims.advanced i (Claims.crossExtra i o s) s { u with p := Claims.withNZ (g v) s.p }) := by
  obtain ⟨ea, hea⟩ := exists_dataAddress s hwf hmode hmodes
  have hv := operandValue_of_dataAddress hea
  have hu := storeOperand_of_dataAddress hea (g (s.mem.read ea.toNat))
  refine ⟨_, hv, _, hu, ?_⟩
  rw [← putNZ_eq_withNZ]
  exact execRmw_eq_advanced hwf hv hu

/-- Settles O25: INC and DEC differ in the byte they count to. -/
theorem incAndDecChangeOneByteOfMemory : Obligations.IncAndDecChangeOneByteOfMemory := by
  refine ⟨⟨encodedAs_opcodes (mn := .inc) (by decide) (fun _ => rfl) fun _ => rfl,
    encodedAs_opcodes (mn := .dec) (by decide) (fun _ => rfl) fun _ => rfl⟩,
    fun o s hwf => ?_, fun o s hwf => ?_, fun o s htable => ?_, fun o s ea hea => ?_⟩
  · simp only [← add_one_eq_ofNat]
    exact execRmw_counts (g := (· + 1)) hwf rfl rfl
  · simp only [← sub_one_eq_ofNat]
    exact execRmw_counts (g := (· - 1)) hwf rfl rfl
  · obtain ⟨hinc, hdec⟩ := classRow_count_penalty o
    exact ⟨fun hwf => crossExtra_eq_zero hwf htable (by simp [hinc]) o,
      fun hwf => crossExtra_eq_zero hwf htable (by simp [hdec]) o⟩
  · exact ⟨rmwAccesses_of_dataAddress hea increment, rmwAccesses_of_dataAddress hea decrement⟩

/-- Settles O26: each counts its register by one modulo 256 and sets N and Z of the result. -/
theorem indexRegistersCountModulo256 : Obligations.IndexRegistersCountModulo256 := by
  refine ⟨⟨rfl, rfl, rfl, rfl⟩, fun s => ?_, fun s => ?_, fun s => ?_, fun s => ?_⟩
  · simp only [exec_inx, execInx, ← add_one_eq_ofNat, ← setX_setNZ]
    exact execImplied_eq_advanced rfl ⟨rfl, rfl, rfl⟩
  · simp only [exec_iny, execIny, ← add_one_eq_ofNat, ← setY_setNZ]
    exact execImplied_eq_advanced rfl ⟨rfl, rfl, rfl⟩
  · simp only [exec_dex, execDex, ← sub_one_eq_ofNat, ← setX_setNZ]
    exact execImplied_eq_advanced rfl ⟨rfl, rfl, rfl⟩
  · simp only [exec_dey, execDey, ← sub_one_eq_ofNat, ← setY_setNZ]
    exact execImplied_eq_advanced rfl ⟨rfl, rfl, rfl⟩

end Sys2Proof.Machine

/-! # Proof of the statement on shifts and rotates (43_shift_rotate.md): the shifted and rotated bytes of R129 as
numbers, and read-modify-write instructions that may also work on A. -/

namespace Sys2Proof.Machine

/-! ## Shifted and rotated bytes as numbers (R129) -/

theorem shiftLeft_one_eq_ofNat (v : Byte) : v <<< 1 = BitVec.ofNat 8 (2 * v.toNat) := by
  rw [← BitVec.toNat_inj, BitVec.toNat_shiftLeft, BitVec.toNat_ofNat, Nat.shiftLeft_eq, Nat.mul_comm]

theorem ushiftRight_one_eq_ofNat (v : Byte) : v >>> 1 = BitVec.ofNat 8 (v.toNat / 2) := by
  have hv : v.toNat / 2 < 2 ^ 8 := (Nat.div_le_self ..).trans_lt v.isLt
  rw [← BitVec.toNat_inj, BitVec.toNat_ushiftRight, BitVec.toNat_ofNat, Nat.mod_eq_of_lt hv, Nat.shiftRight_one]

theorem carryByte_eq_ofNat (p : Byte) : carryByte p = BitVec.ofNat 8 (getFlag .c p).toNat := by
  rw [carryByte]
  cases getFlag .c p <;> rfl

theorem carryByte_shiftLeft_seven (p : Byte) : carryByte p <<< 7 = BitVec.ofNat 8 (128 * (getFlag .c p).toNat) := by
  rw [carryByte]
  cases getFlag .c p <;> rfl

/-- The old C enters bit 0, which the left shift leaves clear. -/
theorem shiftLeft_one_or_carryByte (v p : Byte) :
    v <<< 1 ||| carryByte p = BitVec.ofNat 8 (2 * v.toNat + (getFlag .c p).toNat) := by
  have hc : (getFlag .c p).toNat < 2 ^ 1 := Bool.toNat_lt _
  rw [shiftLeft_one_eq_ofNat, carryByte_eq_ofNat, ← BitVec.ofNat_or]
  exact congrArg (BitVec.ofNat 8) (Nat.two_pow_add_eq_or_of_lt hc v.toNat).symm

/-- The old C enters bit 7, which the right shift leaves clear. -/
theorem ushiftRight_one_or_carryByte (v p : Byte) :
    v >>> 1 ||| carryByte p <<< 7 = BitVec.ofNat 8 (v.toNat / 2 + 128 * (getFlag .c p).toNat) := by
  have hv : v.toNat / 2 < 2 ^ 7 := Nat.div_lt_of_lt_mul v.isLt
  rw [ushiftRight_one_eq_ofNat, carryByte_shiftLeft_seven, ← BitVec.ofNat_or, Nat.or_comm, Nat.add_comm]
  exact congrArg (BitVec.ofNat 8) (Nat.two_pow_add_eq_or_of_lt hv (getFlag .c p).toNat).symm

/-! ## Result and status of the four computations (R129) -/

/-- C is written first, so its bit stands under N and Z of the result. -/
theorem shifted_eq_withNZC (out : Bool) (r p : Byte) : shifted out r p = (r, Claims.withNZC r out p) := by
  rw [shifted, putNZ, putFlag_z_n_c, Claims.withNZC, BitVec.msb_eq_getLsbD_last, beq_eq_decide]

theorem getLsbD_eq_numBit (v : Byte) (n : Nat) : v.getLsbD n = Claims.numBit n v.toNat := (numBit_eq_testBit ..).symm

section
variable (v p : Byte)

theorem shiftLeft_eq :
    let r : Byte := BitVec.ofNat 8 (2 * v.toNat)
    shiftLeft v p = (r, Claims.withNZC r (Claims.numBit 7 v.toNat) p) := by
  intro r
  rw [shiftLeft, shiftLeft_one_eq_ofNat, shifted_eq_withNZC, getLsbD_eq_numBit]

theorem shiftRight_eq :
    let r : Byte := BitVec.ofNat 8 (v.toNat / 2)
    shiftRight v p = (r, Claims.withNZC r (Claims.numBit 0 v.toNat) p) := by
  intro r
  rw [shiftRight, ushiftRight_one_eq_ofNat, shifted_eq_withNZC, getLsbD_eq_numBit]

theorem rotateLeft_eq :
    let r : Byte := BitVec.ofNat 8 (2 * v.toNat + (getFlag .c p).toNat)
    rotateLeft v p = (r, Claims.withNZC r (Claims.numBit 7 v.toNat) p) := by
  intro r
  rw [rotateLeft, shiftLeft_one_or_carryByte, shifted_eq_withNZC, getLsbD_eq_numBit]

theorem rotateRight_eq :
    let r : Byte := BitVec.ofNat 8 (v.toNat / 2 + 128 * (getFlag .c p).toNat)
    rotateRight v p = (r, Claims.withNZC r (Claims.numBit 0 v.toNat) p) := by
  intro r
  rw [rotateRight, ushiftRight_one_or_carryByte, shifted_eq_withNZC, getLsbD_eq_numBit]

end

/-! ## What a read-modify-write instruction on A or memory answers (R92) -/

/-- Every operand with a value can be stored to, but for an immediate one. -/
theorem exists_storeOperand {o : Operand} {s : State} {v : Byte} (hv : s.operandValue o = some v)
    (hi : o.mode ≠ .immediate) (r : Byte) : ∃ u, s.storeOperand o r = some u := by
  by_cases ha : o.mode = .accumulator
  · cases o <;> cases ha
    exact ⟨_, rfl⟩
  · rw [operandValue_of_mode_ne hi ha, Option.map_eq_some_iff] at hv
    obtain ⟨ea, hea, -⟩ := hv
    exact ⟨_, storeOperand_of_dataAddress hea r⟩

/-- An encodable read-modify-write instruction whose modes are A and memory has an operand value `v`, stores the result
in the operand's place and sets P. -/
theorem execRmw_completes {i : Instr} {o : Operand} {s : State} (f : Rmw) (hwf : i.wf = true) (hmode : i.mode = o.mode)
    (hmodes : i.mnemonic.modes.all (· ∉ [.implied, .relative, .indirect]) = true)
    (himmediate : i.mnemonic.modes.all (· ≠ .immediate) = true) :
    ∃ v, s.operandValue o = some v ∧ ∃ u, s.storeOperand o (f v s.p).1 = some u ∧
      execRmw i o f s = .next (Claims.advanced i (Claims.crossExtra i o s) s { u with p := (f v s.p).2 }) := by
  have hmem : o.mode ∈ i.mnemonic.modes := hmode ▸ mode_mem_modes_of_wf hwf
  have hne : o.mode ≠ .immediate := of_decide_eq_true (List.all_eq_true.mp himmediate _ hmem)
  obtain ⟨v, hv⟩ := exists_operandValue s hwf hmode hmodes
  obtain ⟨u, hu⟩ := exists_storeOperand hv hne (f v s.p).1
  exact ⟨v, hv, u, hu, execRmw_eq_advanced hwf hv hu⟩

/-! ## ASL, LSR, ROL and ROR (R130 to R133) -/

/-- The rows of the shifts and rotates are of class none in every mode (R91). -/
theorem classRow_shift_penalty (o : Operand) :
    (Claims.classRow (.asl o)).penalty = .none ∧ (Claims.classRow (.lsr o)).penalty = .none ∧
      (Claims.classRow (.rol o)).penalty = .none ∧ (Claims.classRow (.ror o)).penalty = .none := by
  cases o <;> exact ⟨rfl, rfl, rfl, rfl⟩

/-- Settles O27: the four instructions differ in the result and in the bit that goes to C. -/
theorem shiftsAndRotatesMoveOneBit : Obligations.ShiftsAndRotatesMoveOneBit := by
  refine ⟨⟨encodedAs_opcodes (mn := .asl) (by decide) (fun _ => rfl) fun _ => rfl,
    encodedAs_opcodes (mn := .lsr) (by decide) (fun _ => rfl) fun _ => rfl,
    encodedAs_opcodes (mn := .rol) (by decide) (fun _ => rfl) fun _ => rfl,
    encodedAs_opcodes (mn := .ror) (by decide) (fun _ => rfl) fun _ => rfl⟩,
    fun o s hwf => ?asl, fun o s hwf => ?lsr, fun o s hwf => ?rol, fun o s hwf => ?ror, fun o s htable => ?cross⟩
  case asl =>
    simpa only [exec_asl, execAsl, shiftLeft_eq] using execRmw_completes shiftLeft hwf rfl rfl rfl
  case lsr =>
    simpa only [exec_lsr, execLsr, shiftRight_eq] using execRmw_completes shiftRight hwf rfl rfl rfl
  case rol =>
    simpa only [exec_rol, execRol, State.flag, rotateLeft_eq] using execRmw_completes rotateLeft hwf rfl rfl rfl
  case ror =>
    simpa only [exec_ror, execRor, State.flag, rotateRight_eq] using execRmw_completes rotateRight hwf rfl rfl rfl
  case cross =>
    obtain ⟨hasl, hlsr, hrol, hror⟩ := classRow_shift_penalty o
    exact ⟨fun hwf => crossExtra_eq_zero hwf htable (by simp [hasl]) o,
      fun hwf => crossExtra_eq_zero hwf htable (by simp [hlsr]) o,
      fun hwf => crossExtra_eq_zero hwf htable (by simp [hrol]) o,
      fun hwf => crossExtra_eq_zero hwf htable (by simp [hror]) o⟩

end Sys2Proof.Machine

/-! # Proofs of the statements on control transfer (44_control.md): the bytes of page 1 that JSR, BRK, RTS and RTI push
and pull as numbers, and what each of them and JMP leave. -/

namespace Sys2Proof.Machine

/-! ## S and the bytes of page 1 as numbers (R48, R49) -/

section
variable (sp : Byte)

theorem sub_two_eq_ofNat : sp - 1 - 1 = BitVec.ofNat 8 (sp.toNat + 254) := by bv_omega

theorem sub_three_eq_ofNat : sp - 1 - 1 - 1 = BitVec.ofNat 8 (sp.toNat + 253) := by bv_omega

theorem add_two_eq_ofNat : sp + 1 + 1 = BitVec.ofNat 8 (sp.toNat + 2) := by bv_omega

theorem add_three_eq_ofNat : sp + 1 + 1 + 1 = BitVec.ofNat 8 (sp.toNat + 3) := by bv_omega

end

/-- The stack byte that S modulo 256 names lies in page 1. -/
theorem stackAddr_ofNat_toNat (n : Nat) : (stackAddr (BitVec.ofNat 8 n)).toNat = 0x0100 + n % 256 := by
  rw [stackAddr_toNat, BitVec.toNat_ofNat]

theorem read_stackAddr_ofNat (s : State) (n : Nat) :
    s.read (stackAddr (BitVec.ofNat 8 n)) = s.mem.read (0x0100 + n % 256) := by
  rw [State.read, stackAddr_ofNat_toNat]

theorem word_ofNat_add_one (n : Nat) : BitVec.ofNat 16 n + 1 = BitVec.ofNat 16 (n + 1) := (BitVec.ofNat_add n 1).symm

theorem hiByte_eq_ofNat (w : Word) : hiByte w = BitVec.ofNat 8 (w.toNat / 256) := by
  rw [← hiByte_toNat, BitVec.ofNat_toNat, BitVec.setWidth_eq]

theorem loByte_eq_ofNat (w : Word) : loByte w = BitVec.ofNat 8 w.toNat := by
  rw [← BitVec.toNat_inj, loByte_toNat, BitVec.toNat_ofNat]

/-- The memory after pushing the word `w`, high byte first (R144, R147). -/
theorem write_stack_word (m : Memory) (sp : Byte) (w : Word) :
    (m.write (stackAddr sp).toNat (hiByte w)).write (stackAddr (sp - 1)).toNat (loByte w) =
      (m.write (0x0100 + sp.toNat) (BitVec.ofNat 8 (w.toNat / 256))).write (0x0100 + (sp.toNat + 255) % 256)
        (BitVec.ofNat 8 w.toNat) := by
  rw [hiByte_eq_ofNat, loByte_eq_ofNat, sub_one_eq_ofNat, stackAddr_ofNat_toNat, stackAddr_toNat]

theorem pushWord_eq (s : State) (w : Word) :
    s.pushWord w = { s with
      sp := BitVec.ofNat 8 (s.sp.toNat + 254)
      mem := (s.mem.write (0x0100 + s.sp.toNat) (BitVec.ofNat 8 (w.toNat / 256))).write
        (0x0100 + (s.sp.toNat + 255) % 256) (BitVec.ofNat 8 w.toNat) } := by
  rw [← write_stack_word, ← sub_two_eq_ofNat]
  rfl

/-! ## The booking of an instruction that sets PC itself (R168 to R170) -/

/-- An instruction whose effect is `t`, with its base cycles and its coverage mark. -/
theorem withOpcode_book_eq_booked {i : Instr} {op : Byte} {s t : State} (hop : i.opcode = some op)
    (ht : SameBooks s t) : (withOpcode i fun op => .next (t.book op 0)) = .next (Claims.booked i 0 s t) := by
  rw [withOpcode_some hop, book_eq_booked hop ht.cycles ht.coverage ht.params]

/-- A jump without a registered target, booked on the state `t` that its own effect leaves. -/
theorem bookAfterVsr_eq_booked {i : Instr} {op : Byte} {target : Word} {isJsr : Bool} {s t : State}
    (hop : i.opcode = some op) (hvsr : t.vsr.lookup target = none) (ht : SameBooks s t) :
    bookAfterVsr op target isJsr t = .next (Claims.booked i 0 s t) := by
  rw [bookAfterVsr_none hvsr, book_eq_booked hop ht.cycles ht.coverage ht.params]

/-! ## JMP and JSR to a target without a VSR (R143, R144) -/

theorem execJmp_eq_booked {o : Operand} {s : State} {w : Word} (hwf : (Instr.jmp o).wf = true)
    (hea : (s.resolve o).ea = some w) (hvsr : s.vsr.lookup w = none) :
    execJmp o s = .next (Claims.booked (.jmp o) 0 s { s with pc := w }) := by
  obtain ⟨op, hop⟩ := exists_opcode hwf
  rw [execJmp, withOpcode_some hop, hea]
  exact bookAfterVsr_eq_booked (t := s.setPc w) hop hvsr ⟨rfl, rfl, rfl⟩

theorem execJsr_eq_booked {s : State} {w : Word} (hvsr : s.vsr.lookup w = none) :
    execJsr w s = .next (Claims.booked (.jsr w) 0 s { s.pushWord (s.pc + 2) with pc := w }) := by
  rw [execJsr, withOpcode_some (op := 0x20) rfl]
  exact bookAfterVsr_eq_booked (t := (s.pushWord (s.pc + 2)).setPc w) rfl hvsr ⟨rfl, rfl, rfl⟩

/-- Settles O29: without a callback the VSR check changes nothing, so JMP leaves its target in PC and JSR its pushes. -/
theorem jumpsWithoutVsrGoToTheirTarget : Obligations.JumpsWithoutVsrGoToTheirTarget := by
  refine ⟨encodedAs_opcodes (mn := .jmp) (by decide) (fun _ => rfl) fun _ => rfl, fun _ => rfl,
    fun o s w hwf hea hvsr => execJmp_eq_booked hwf hea hvsr, fun s w hvsr => ?_⟩
  rw [exec_jsr, execJsr_eq_booked hvsr, pushWord_eq, pc_add_two_toNat]

/-! ## RTS and RTI (R145, R146) -/

theorem execRts_eq_booked (s : State) : execRts s = .next (Claims.booked .rts 0 s s.returnFromSubroutine) :=
  withOpcode_book_eq_booked rfl ⟨rfl, rfl, rfl⟩

theorem execRti_eq_booked (s : State) : execRti s = .next (Claims.booked .rti 0 s s.returnFromInterrupt) :=
  withOpcode_book_eq_booked rfl ⟨rfl, rfl, rfl⟩

/-- Settles O31: S counts modulo 256 while the bytes are pulled; RTS adds 1 to the word, RTI pulls P before it. -/
theorem returnsPullPc : Obligations.ReturnsPullPc := by
  intro s at'
  have hread (k : Nat) : s.read (stackAddr (BitVec.ofNat 8 (s.sp.toNat + k))) = at' k := read_stackAddr_ofNat s _
  refine ⟨rfl, rfl, ?rts, ?rti⟩
  case rts =>
    rw [exec_rts, execRts_eq_booked, returnFromSubroutine_eq, add_two_eq_ofNat, add_one_eq_ofNat, hread, hread,
      concat_eq_ofNat, word_ofNat_add_one]
  case rti =>
    rw [exec_rti, execRti_eq_booked, returnFromInterrupt_eq, add_three_eq_ofNat, add_two_eq_ofNat, add_one_eq_ofNat,
      hread, hread, hread, concat_eq_ofNat, bit5]

/-! ## BRK (R147) -/

/-- The memory after pushing a word and a status byte. -/
theorem pushed3_eq (m : Memory) (sp : Byte) (w : Word) (status : Byte) :
    pushed3 m sp (hiByte w) (loByte w) status =
      ((m.write (0x0100 + sp.toNat) (BitVec.ofNat 8 (w.toNat / 256))).write (0x0100 + (sp.toNat + 255) % 256)
        (BitVec.ofNat 8 w.toNat)).write (0x0100 + (sp.toNat + 254) % 256) status := by
  rw [pushed3, write_stack_word, sub_two_eq_ofNat, stackAddr_ofNat_toNat]

/-- A vector above page 1 is not changed by the pushes. -/
theorem takeInterrupt_eq_ofNat {vec : Word} (hlo : 0x0200 ≤ vec.toNat) (hhi : 0x0200 ≤ (vec + 1).toNat) (s : State)
    (ret : Word) (status : Byte) :
    s.takeInterrupt vec ret status = { s with
      sp := BitVec.ofNat 8 (s.sp.toNat + 253)
      p := putFlag .i true s.p
      pc := BitVec.ofNat 16 ((s.mem.read vec.toNat).toNat + 256 * (s.mem.read (vec + 1).toNat).toNat)
      mem := ((s.mem.write (0x0100 + s.sp.toNat) (BitVec.ofNat 8 (ret.toNat / 256))).write
        (0x0100 + (s.sp.toNat + 255) % 256) (BitVec.ofNat 8 ret.toNat)).write
        (0x0100 + (s.sp.toNat + 254) % 256) status } := by
  have hread := pushed3_read s.mem s.sp (hiByte ret) (loByte ret) status
  rw [← pushed3_eq, ← sub_three_eq_ofNat, ← concat_eq_ofNat, ← hread _ hlo, ← hread _ hhi]
  exact takeInterrupt_eq ..

theorem putFlag_b_putFlag_i (p : Byte) : putFlag .b true (putFlag .i true p) = p ||| 0x14 := BitVec.or_assoc ..

theorem readP_or_status (s : State) : s.readP ||| 0x30 = s.p ||| 0x30 := BitVec.or_assoc ..

theorem execBrk_eq_booked (s : State) :
    execBrk s = .next (Claims.booked .brk 0 s
      ((s.takeInterrupt irqVector (s.pc + 2) (s.readP ||| 0x30)).setFlag .b true)) :=
  withOpcode_book_eq_booked rfl ⟨by simp, by simp, by simp⟩

/-- Settles O32: BRK is the interrupt sequence with its own return address and status, and sets B too. -/
theorem brkTakesTheSoftwareInterrupt : Obligations.BrkTakesTheSoftwareInterrupt := by
  intro s ret
  refine ⟨rfl, rfl, ?_⟩
  rw [exec_brk, execBrk_eq_booked, takeInterrupt_eq_ofNat (by decide) (by decide), pc_add_two_toNat, readP_or_status,
    State.setFlag, State.updateP, putFlag_b_putFlag_i]
  rfl

end Sys2Proof.Machine

/-! # Proofs of the statements on stack, flag and no-operation instructions (45_stack_flags_misc.md): a push and a pull
as numbers, and one flag of P written as a mask. -/

namespace Sys2Proof.Machine

section
variable (s : State)

/-! ## One byte pushed and pulled (R48, R49) -/

theorem push_eq_ofNat (v : Byte) :
    s.push v = { s with
      sp := BitVec.ofNat 8 (s.sp.toNat + 255)
      mem := s.mem.write (0x0100 + s.sp.toNat) v } := by
  rw [← sub_one_eq_ofNat, ← stackAddr_toNat]
  rfl

theorem pull_eq_ofNat :
    s.pull = (s.mem.read (0x0100 + (s.sp.toNat + 1) % 256), { s with sp := BitVec.ofNat 8 (s.sp.toNat + 1) }) := by
  rw [← read_stackAddr_ofNat, ← add_one_eq_ofNat]
  rfl

end

/-! ## One flag written as a mask (R153 to R159) -/

section
variable {i : Instr} {op mask : Byte} {f : Flag} (hop : i.opcode = some op) (s : State)
include hop

/-- An implied instruction that clears a flag keeps the bits of P in `mask`, those other than the flag's, and books its
row. -/
theorem execImplied_clearFlag (hmask : ~~~f.mask = mask) :
    execImplied i (State.setFlag f false) s = .next (Claims.advanced i 0 s { s with p := s.p &&& mask }) := by
  subst hmask
  exact execImplied_eq_advanced hop ⟨rfl, rfl, rfl⟩

/-- An implied instruction that sets a flag adds to P the one bit of `mask`, the flag's, and books its row. -/
theorem execImplied_setFlag (hmask : f.mask = mask) :
    execImplied i (State.setFlag f true) s = .next (Claims.advanced i 0 s { s with p := s.p ||| mask }) := by
  subst hmask
  exact execImplied_eq_advanced hop ⟨rfl, rfl, rfl⟩

end

/-! ## PHA, PHP, PLA and PLP (R149 to R152) -/

/-- Settles O33: PHA and PHP push their byte, PLA and PLP load the byte pulled; none of them touches the booking. -/
theorem stackInstructionsMoveAAndP : Obligations.StackInstructionsMoveAAndP := by
  intro s pulled
  refine ⟨⟨rfl, rfl, rfl, rfl⟩, ⟨rfl, rfl, rfl, rfl⟩, ?pha, ?php, ?pla, ?plp⟩
  case pha =>
    rw [exec_pha, execPha, ← push_eq_ofNat]
    exact execImplied_eq_advanced rfl ⟨rfl, rfl, rfl⟩
  case php =>
    rw [exec_php, execPhp, ← readP_or_status, ← push_eq_ofNat]
    exact execImplied_eq_advanced rfl ⟨rfl, rfl, rfl⟩
  case pla =>
    have heffect : (s.pull.2.setA s.pull.1).setNZ s.pull.1 = { s with
        sp := BitVec.ofNat 8 (s.sp.toNat + 1), a := pulled, p := Claims.withNZ pulled s.p } := by
      rw [setA_setNZ, pull_eq_ofNat]
    rw [exec_pla, execPla, ← heffect]
    exact execImplied_eq_advanced rfl ⟨rfl, rfl, rfl⟩
  case plp =>
    have heffect : s.pull.2.setP s.pull.1 = { s with
        sp := BitVec.ofNat 8 (s.sp.toNat + 1), p := pulled ||| 0x20 } := by
      rw [pull_eq_ofNat]
      rfl
    rw [exec_plp, execPlp, ← heffect]
    exact execImplied_eq_advanced rfl ⟨rfl, rfl, rfl⟩

/-! ## The flag instructions and NOP (R153 to R160) -/

/-- Settles O34: the instructions differ in the flag they write and so in its mask; NOP's effect is the identity. -/
theorem flagInstructionsWriteOneFlag : Obligations.FlagInstructionsWriteOneFlag := by
  refine ⟨⟨rfl, rfl, rfl, rfl, rfl, rfl, rfl, rfl⟩, rfl, fun s => ?clc, fun s => ?cld, fun s => ?cli, fun s => ?clv,
    fun s => ?sec, fun s => ?sed, fun s => ?sei, fun s => ?nop⟩
  case clc =>
    rw [exec_clc, execClc]
    exact execImplied_clearFlag rfl s rfl
  case cld =>
    rw [exec_cld, execCld]
    exact execImplied_clearFlag rfl s rfl
  case cli =>
    rw [exec_cli, execCli]
    exact execImplied_clearFlag rfl s rfl
  case clv =>
    rw [exec_clv, execClv]
    exact execImplied_clearFlag rfl s rfl
  case sec =>
    rw [exec_sec, execSec]
    exact execImplied_setFlag rfl s rfl
  case sed =>
    rw [exec_sed, execSed]
    exact execImplied_setFlag rfl s rfl
  case sei =>
    rw [exec_sei, execSei]
    exact execImplied_setFlag rfl s rfl
  case nop =>
    rw [exec_nop, execNop]
    exact execImplied_eq_advanced rfl ⟨rfl, rfl, rfl⟩

end Sys2Proof.Machine

/-! # Proofs of the statements on the execution engine (48_execution_engine.md): which instruction a step runs, what it
answers, what the step keeps, how it ends, the VSR hook, the host's calls and run(n). -/

namespace Sys2Proof.Machine

/-! ## The coverage set as a set (R170, R177) -/

/-- Marking adds one element to a strictly rising list, unless it is there. -/
theorem length_mark {op : Byte} {l : List Byte} (h : l.Pairwise fun b c => b.toNat < c.toNat) :
    (mark op l).length = if op ∈ l then l.length else l.length + 1 := by
  induction l with
  | nil => rfl
  | cons c l ih =>
    obtain ⟨hc, hl⟩ := List.pairwise_cons.mp h
    unfold mark
    split
    · next hlt =>
      have hnot : op ∉ c :: l := by
        intro hmem
        obtain rfl | hmem := List.mem_cons.mp hmem
        · omega
        · have := hc op hmem
          omega
      rw [if_neg hnot, List.length_cons]
    · split
      · next hop => rw [if_pos (hop ▸ List.mem_cons_self)]
      · next hne =>
        rw [List.length_cons, ih hl]
        simp only [List.mem_cons, hne, false_or, List.length_cons]
        split <;> rfl

/-- A coverage set and the 105 illegal values have no value in common, so they fill at most the 256 opcode values. -/
theorem length_le_of_coverageWf {l : List Byte} (h : coverageWf l = true) : l.length ≤ 151 := by
  obtain ⟨hl, hlegal⟩ := coverageWf_iff.mp h
  have hnodup : l.Nodup := hl.imp fun hlt heq => by rw [heq] at hlt; exact lt_irrefl _ hlt
  have hdisjoint : l.Disjoint illegalOpcodes := fun b hb hill => by
    rw [mem_illegalOpcodes_iff, hlegal b hb] at hill
    cases hill
  have hlen := (hnodup.append nodup_illegalOpcodes hdisjoint).length_le_card
  have hcard : Fintype.card Byte = 256 := FinEnum.card_eq_fintypeCard.symm
  have hill : illegalOpcodes.length = 105 := rfl
  rw [List.length_append, hcard, hill] at hlen
  omega

/-! ## The VSR registry (R174) -/

/-- Registering adds or replaces one entry, and looks at no other. -/
theorem mem_putVsr {addr : Word} {cb : Callback} {l : List (Word × Callback)} {e : Word × Callback}
    (h : e ∈ putVsr addr cb l) : e.1 = addr ∨ e ∈ l := by
  induction l with
  | nil => exact .inl (by rw [List.mem_singleton.mp h])
  | cons c l ih =>
    unfold putVsr at h
    split at h
    · obtain rfl | h := List.mem_cons.mp h
      · exact .inr List.mem_cons_self
      · exact (ih h).imp_right (List.mem_cons_of_mem _)
    · split at h
      · obtain rfl | h := List.mem_cons.mp h
        · exact .inl rfl
        · exact .inr (List.mem_cons_of_mem _ h)
      · obtain rfl | h := List.mem_cons.mp h
        · exact .inl rfl
        · exact .inr h

theorem vsrWf_iff {l : List (Word × Callback)} :
    vsrWf l = true ↔ l.Pairwise fun e f => e.1.toNat < f.1.toNat := by
  simp [vsrWf]

/-- Registering keeps the canonical form of the registry. -/
theorem vsrWf_putVsr (addr : Word) (cb : Callback) {l : List (Word × Callback)} (h : vsrWf l = true) :
    vsrWf (putVsr addr cb l) = true := by
  rw [vsrWf_iff] at h ⊢
  induction l with
  | nil => exact List.pairwise_singleton _ _
  | cons c l ih =>
    obtain ⟨hc, hl⟩ := List.pairwise_cons.mp h
    unfold putVsr
    split
    · next hlt =>
      refine List.pairwise_cons.mpr ⟨fun e he => ?_, ih hl⟩
      obtain heq | he := mem_putVsr he
      · rw [heq]
        exact hlt
      · exact hc e he
    · split
      · next heq => exact List.pairwise_cons.mpr ⟨heq ▸ hc, hl⟩
      · next hge hne =>
        refine List.pairwise_cons.mpr ⟨fun e he => ?_, h⟩
        have hlt : addr.toNat < c.1.toNat := lt_of_le_of_ne (not_lt.mp hge) fun e => hne (BitVec.eq_of_toNat_eq e.symm)
        obtain rfl | he := List.mem_cons.mp he
        · exact hlt
        · exact hlt.trans (hc e he)

theorem lookup_cons_eq_ite (a : Word) (e : Word × Callback) (l : List (Word × Callback)) :
    (e :: l).lookup a = if a = e.1 then some e.2 else l.lookup a := by
  rw [List.lookup_cons]
  by_cases h : a = e.1
  · simp [h]
  · rw [beq_false_of_ne h, if_neg h]

/-- What the registry answers after a registration. -/
theorem lookup_putVsr (addr a : Word) (cb : Callback) (l : List (Word × Callback)) :
    (putVsr addr cb l).lookup a = if a = addr then some cb else l.lookup a := by
  induction l with
  | nil => exact lookup_cons_eq_ite a (addr, cb) []
  | cons c l ih =>
    unfold putVsr
    split
    · next hlt =>
      have hne : addr ≠ c.1 := fun e => by rw [e] at hlt; exact lt_irrefl _ hlt
      rw [lookup_cons_eq_ite, lookup_cons_eq_ite, ih]
      by_cases ha : a = addr
      · subst ha
        simp [hne]
      · simp [ha]
    · split
      · next heq =>
        rw [lookup_cons_eq_ite, lookup_cons_eq_ite, heq]
        by_cases ha : a = addr <;> simp [ha]
      · exact lookup_cons_eq_ite a (addr, cb) _

/-! ## What a callback's acts answer (R175) -/

/-- A callback's acts change the registers, PC, memory and the exit request, and nothing else. -/
theorem vsrActs_eq {l : List VsrAct} {s t : State} (h : vsrActs l s = .next t) :
    t = { s with a := t.a, x := t.x, y := t.y, sp := t.sp, p := t.p, pc := t.pc, mem := t.mem,
                 exitReq := t.exitReq } := by
  induction l generalizing s with
  | nil =>
    obtain rfl := Host.Outcome.next.inj h
    rfl
  | cons act rest ih =>
    rw [vsrActs] at h
    split at h
    · next u hu =>
      refine (ih h).trans ?_
      rw [vsrAct_next hu]
    · cases h
    · cases h

/-- The acts go on when none of them is on engine state; one that is gets the callback refused. -/
theorem vsrActs_cases (l : List VsrAct) (s : State) :
    ((∀ part, .touchEngine part ∉ l) ∧ ∃ t, vsrActs l s = .next t) ∨
      ∃ part, .touchEngine part ∈ l ∧ vsrActs l s = .refused (.callbackTouchesEngine part) := by
  induction l generalizing s with
  | nil => exact .inl ⟨fun _ => List.not_mem_nil, s, rfl⟩
  | cons act rest ih =>
    cases act with
    | touchEngine part => exact .inr ⟨part, List.mem_cons_self, rfl⟩
    | _ => simpa only [List.mem_cons, reduceCtorEq, false_or, vsrActs, vsrAct] using ih _

theorem invokeCallback_cases (cb : Callback) (s : State) :
    ((∀ part, .touchEngine part ∉ s.callbackActs cb) ∧ ∃ t, invokeCallback cb s = .next t) ∨
      ∃ part, .touchEngine part ∈ s.callbackActs cb ∧
        invokeCallback cb s = .refused (.callbackTouchesEngine part) :=
  vsrActs_cases _ _

theorem invokeCallback_eq {cb : Callback} {s t : State} (h : invokeCallback cb s = .next t) :
    t = { s with a := t.a, x := t.x, y := t.y, sp := t.sp, p := t.p, pc := t.pc, mem := t.mem,
                 exitReq := t.exitReq, vsrCalls := s.vsrCalls + 1 } :=
  vsrActs_eq h

theorem invokeCallback_sameBooks {cb : Callback} {s t : State} (h : invokeCallback cb s = .next t) :
    SameBooks s t := by
  rw [invokeCallback_eq h]
  exact ⟨rfl, rfl, rfl⟩

/-- A jump whose registered callback goes on, booked on the state `t` that its own effect leaves. -/
theorem bookAfterVsr_eq_booked_callback {i : Instr} {op : Byte} {target : Word} {isJsr : Bool} {s t u : State}
    {cb : Callback} (hop : i.opcode = some op) (hcb : t.vsr.lookup target = some cb)
    (hu : invokeCallback cb t = .next u) (ht : SameBooks s t) :
    bookAfterVsr op target isJsr t =
      .next (Claims.booked i 0 s (if isJsr then u.returnFromSubroutine else u)) := by
  obtain ⟨hcycles, hcoverage, hparams⟩ := invokeCallback_sameBooks hu
  rw [bookAfterVsr_some hcb hu]
  refine congrArg _ (book_eq_booked hop ?_ ?_ ?_ 0)
  · cases isJsr <;> exact hcycles.trans ht.cycles
  · cases isJsr <;> exact hcoverage.trans ht.coverage
  · cases isJsr <;> exact hparams.trans ht.params

/-- Settles O30: the VSR check runs the registered callback once, on what the jump itself has left. -/
theorem vsrCallbacksRunAtJumps : Obligations.VsrCallbacksRunAtJumps := by
  refine ⟨fun s u o w cb hwf hea hcb hu => ?jmp, fun s u w cb hcb hu => ?jsr, fun s u cb => invokeCallback_eq,
    fun s acts part hpart => ?refused⟩
  case jmp =>
    obtain ⟨op, hop⟩ := exists_opcode hwf
    rw [exec_jmp, execJmp, withOpcode_some hop, hea]
    exact bookAfterVsr_eq_booked_callback (t := s.setPc w) hop hcb hu ⟨rfl, rfl, rfl⟩
  case jsr =>
    rw [exec_jsr, execJsr, withOpcode_some (op := 0x20) rfl]
    exact bookAfterVsr_eq_booked_callback (t := Claims.afterJsr w s) rfl hcb hu ⟨rfl, rfl, rfl⟩
  case refused =>
    obtain ⟨hnone, -⟩ | hsome := invokeCallback_cases (.known acts) s
    · exact absurd hpart (hnone part)
    · exact hsome

/-! ## What a well-formed instruction answers (R167, R175, R200) -/

/-- The state in which a jump's VSR check finds the callback of its target `w`. -/
def afterJump (i : Instr) (w : Word) (s : State) : State :=
  match i with
  | .jsr _ => Claims.afterJsr w s
  | _ => s.setPc w

/-- A callback that `i` invokes in `s` has the act `part` on engine state. -/
def CallbackTouches (i : Instr) (s : State) (part : EnginePart) : Prop :=
  ∃ w cb, Claims.jumpTarget i s = some w ∧ s.vsr.lookup w = some cb ∧
    .touchEngine part ∈ (afterJump i w s).callbackActs cb

/-- What `i` answers in `s`: a next state, or the refusal of a callback that changes engine state. -/
def CompletesOrTouches (i : Instr) (s : State) : Prop :=
  (∃ t, exec i s = .next t) ∨ ∃ part, CallbackTouches i s part ∧ exec i s = .refused (.callbackTouchesEngine part)

theorem execImplied_goesOn {i : Instr} (hwf : i.wf = true) (e : State → State) (s : State) :
    ∃ t, execImplied i e s = .next t := by
  obtain ⟨op, hop⟩ := exists_opcode hwf
  exact ⟨_, execImplied_next.mpr ⟨op, hop, rfl⟩⟩

theorem execBranch_goesOn {i : Instr} (hwf : i.wf = true) (cond : Bool) (b : Byte) (s : State) :
    ∃ t, execBranch i cond b s = .next t := by
  obtain ⟨op, hop⟩ := exists_opcode hwf
  exact ⟨_, execBranch_next.mpr ⟨op, hop, rfl⟩⟩

theorem execRead_goesOn {i : Instr} {o : Operand} (hwf : i.wf = true) (hmode : i.mode = o.mode)
    (hmodes : i.mnemonic.modes.all (· ∉ [.implied, .relative, .indirect]) = true) (e : Byte → State → State) (s : State) :
    ∃ t, execRead i o e s = .next t := by
  obtain ⟨op, hop⟩ := exists_opcode hwf
  obtain ⟨v, hv⟩ := exists_operandValue s hwf hmode hmodes
  exact ⟨_, execRead_next.mpr ⟨op, v, hop, hv, rfl⟩⟩

theorem execRmw_goesOn {i : Instr} {o : Operand} (hwf : i.wf = true) (hmode : i.mode = o.mode)
    (hmodes : i.mnemonic.modes.all (· ∉ [.implied, .relative, .indirect]) = true)
    (himmediate : i.mnemonic.modes.all (· ≠ .immediate) = true) (f : Rmw) (s : State) :
    ∃ t, execRmw i o f s = .next t := by
  obtain ⟨_, -, _, -, h⟩ := execRmw_completes (s := s) f hwf hmode hmodes himmediate
  exact ⟨_, h⟩

/-- A jump goes on past its VSR check, or its callback is refused. -/
theorem bookAfterVsr_cases (op : Byte) (target : Word) (isJsr : Bool) (s : State) :
    (∃ t, bookAfterVsr op target isJsr s = .next t) ∨
      ∃ part cb, s.vsr.lookup target = some cb ∧ .touchEngine part ∈ s.callbackActs cb ∧
        bookAfterVsr op target isJsr s = .refused (.callbackTouchesEngine part) := by
  cases hcb : s.vsr.lookup target with
  | none => exact .inl ⟨_, bookAfterVsr_none hcb⟩
  | some cb =>
    obtain ⟨-, u, hu⟩ | ⟨part, hpart, hu⟩ := invokeCallback_cases cb s
    · exact .inl ⟨_, bookAfterVsr_some hcb hu⟩
    · exact .inr ⟨part, cb, rfl, hpart, by simp only [bookAfterVsr, vsrCheck, hcb, hu]⟩

theorem execJmp_completesOrTouches {o : Operand} (hwf : (Instr.jmp o).wf = true) (s : State) :
    CompletesOrTouches (.jmp o) s := by
  obtain ⟨op, hop⟩ := exists_opcode hwf
  obtain ⟨w, hea⟩ : ∃ w, (s.resolve o).ea = some w := by
    cases o with
    | implied | accumulator | immediate _ => cases hwf
    | _ => exact ⟨_, rfl⟩
  have hexec : exec (.jmp o) s = bookAfterVsr op w false (s.setPc w) := by
    rw [exec_jmp, execJmp, withOpcode_some hop, hea]
  obtain ⟨t, ht⟩ | ⟨part, cb, hcb, hpart, ht⟩ := bookAfterVsr_cases op w false (s.setPc w)
  · exact .inl ⟨t, hexec.trans ht⟩
  · exact .inr ⟨part, ⟨w, cb, hea, hcb, hpart⟩, hexec.trans ht⟩

theorem execJsr_completesOrTouches (w : Word) (s : State) : CompletesOrTouches (.jsr w) s := by
  have hexec : exec (.jsr w) s = bookAfterVsr 0x20 w true (Claims.afterJsr w s) := by
    rw [exec_jsr, execJsr, withOpcode_some (op := 0x20) rfl]
    rfl
  obtain ⟨t, ht⟩ | ⟨part, cb, hcb, hpart, ht⟩ := bookAfterVsr_cases 0x20 w true (Claims.afterJsr w s)
  · exact .inl ⟨t, hexec.trans ht⟩
  · exact .inr ⟨part, ⟨w, cb, rfl, hcb, hpart⟩, hexec.trans ht⟩

/-- A well-formed instruction faults in no state, and only the callback of a jump can get it refused. -/
theorem exec_completesOrTouches {i : Instr} (hwf : i.wf = true) (s : State) : CompletesOrTouches i s := by
  cases i with
  | adc o | and o | bit o | cmp o | cpx o | cpy o | eor o | lda o | ldx o | ldy o | ora o | sbc o =>
    exact .inl (execRead_goesOn hwf rfl rfl _ s)
  | sta o | stx o | sty o =>
    obtain ⟨_, -, -, h⟩ := execStore_stores (s := s) hwf rfl rfl _
    exact .inl ⟨_, h⟩
  | asl o => exact .inl (execRmw_goesOn hwf rfl rfl rfl shiftLeft s)
  | lsr o => exact .inl (execRmw_goesOn hwf rfl rfl rfl shiftRight s)
  | rol o => exact .inl (execRmw_goesOn hwf rfl rfl rfl rotateLeft s)
  | ror o => exact .inl (execRmw_goesOn hwf rfl rfl rfl rotateRight s)
  | inc o => exact .inl (execRmw_goesOn hwf rfl rfl rfl increment s)
  | dec o => exact .inl (execRmw_goesOn hwf rfl rfl rfl decrement s)
  | bcc b | bcs b | beq b | bmi b | bne b | bpl b | bvc b | bvs b => exact .inl (execBranch_goesOn hwf _ b s)
  | jmp o => exact execJmp_completesOrTouches hwf s
  | jsr w => exact execJsr_completesOrTouches w s
  | rts | rti | brk => exact .inl ⟨_, rfl⟩
  | illegal op =>
    obtain ⟨op', hop⟩ := exists_opcode hwf
    exact .inl ⟨_, withOpcode_some hop⟩
  | _ => exact .inl (execImplied_goesOn hwf _ s)

/-! ## The instruction at PC (R162, R165 to R167) -/

theorem fetch_opcode (s : State) : s.fetch.opcode = some (s.read s.pc) := opcode_assemble _ _ _

/-- Whatever byte stands at PC, the fetched instruction is well-formed. -/
theorem fetch_wf (s : State) : s.fetch.wf = true := by
  rw [← isSome_opcode, fetch_opcode]
  rfl

/-- The fetch reads the operand bytes that the length requires; the others count as 0, as for the decoder. -/
theorem decode_eq_fetch (s : State) :
    ∃ rest, decode [s.read s.pc, s.read (s.pc + 1), s.read (s.pc + 2)] = .ok (s.fetch, rest) := by
  rw [State.fetch, State.fetchBytes]
  obtain h | h | h := length_eq_one_or_two_or_three (lookup (s.read s.pc)).mode
  · exact ⟨_, by rw [decode_of_length_one h, h]; rfl⟩
  · exact ⟨_, by rw [decode_of_length_two h, h]; rfl⟩
  · exact ⟨_, by rw [decode_of_length_three h, h]; rfl⟩

theorem fetch_of_decode {s : State} {i : Instr} {rest : List Byte}
    (h : decode [s.read s.pc, s.read (s.pc + 1), s.read (s.pc + 2)] = .ok (i, rest)) : s.fetch = i := by
  obtain ⟨_, hfetch⟩ := decode_eq_fetch s
  rw [hfetch] at h
  exact (Prod.mk.inj (Except.ok.inj h)).1

theorem runsInstr_iff {s : State} : Claims.runsInstr s ↔
    s.powered = true ∧ s.runState = .running ∧ s.takesNmi = false ∧ s.takesIrq = false := by
  refine and_congr_right fun _ => and_congr_right fun _ => and_congr_right fun hlatch => ?_
  rw [State.takesIrq, hlatch]
  simp

/-- A step that services no interrupt runs the fetched instruction. -/
theorem step_of_runsInstr {s : State} (h : Claims.runsInstr s) : step s = finish s.pc (exec s.fetch s.clearExit) := by
  obtain ⟨hp, hr, hnmi, hirq⟩ := runsInstr_iff.mp h
  exact step_of_instr hp hr hnmi hirq

/-- Settles O37: the step fetches what the decoder reads from the three bytes at PC. -/
theorem stepRunsTheDecodedInstruction : Obligations.StepRunsTheDecodedInstruction := by
  intro s i rest hruns hdec
  obtain rfl := fetch_of_decode hdec
  refine ⟨fetch_wf s, fun t ht => ?_, fun r hr => ?_, fun r hr => ?_⟩
  · exact (step_of_runsInstr hruns).trans (finish_next.mpr ⟨t, ht, rfl⟩)
  · exact (step_of_runsInstr hruns).trans (congrArg (finish s.pc) hr)
  · obtain ⟨t, ht⟩ | ⟨part, -, ht⟩ := exec_completesOrTouches (fetch_wf s) s.clearExit
    · cases ht.symm.trans hr
    · cases ht.symm.trans hr

/-! ## Illegal opcodes and terminal states (R171, R178) -/

theorem execIllegal_eq {op : Byte} (h : op ∈ illegalOpcodes) (s : State) :
    execIllegal op s = .next { s with pc := s.pc + 1, runState := .illegalOpcode s.pc op } :=
  withOpcode_some (opcode_illegal_iff.mpr ⟨mem_illegalOpcodes_iff.mp h, rfl⟩)

theorem fetch_of_illegal {s : State} (h : s.read s.pc ∈ illegalOpcodes) : s.fetch = .illegal (s.read s.pc) :=
  assemble_of_isIllegal _ _ (mem_illegalOpcodes_iff.mp h)

/-- Settles O35: the run state IllegalOpcode ends the step as it is, and the next step does nothing. -/
theorem illegalOpcodesEndTheRun : Obligations.IllegalOpcodesEndTheRun := by
  refine ⟨fun op s hop => execIllegal_eq hop s, fun s hruns hop => ?_⟩
  intro t
  have hp : t.powered = true := hruns.1
  have hterminal : t.runState ≠ .running := RunState.noConfusion
  have hexec : exec s.fetch s.clearExit = .next t := by
    rw [fetch_of_illegal hop]
    exact execIllegal_eq hop s.clearExit
  refine ⟨?_, step_of_terminal hp hterminal⟩
  rw [step_of_runsInstr hruns, hexec, finish, endStep_terminal _ hterminal]

theorem step_unpowered {s : State} (h : s.powered = false) : step s = .refused .notPowered := by
  rw [step, h]
  rfl

/-- A refused step ends the run with that refusal (R183). -/
theorem runGives_of_refused {s : State} {e : Refusal} (h : step s = .refused e) (n : Nat) (r : RunResult) :
    RunGives n s r ↔ r = .refused e := by
  constructor
  · rintro ⟨_ | fuel, hr⟩
    · cases hr
    · rw [runWithin, runLoop_refused h] at hr
      exact (Option.some.inj hr).symm
  · rintro rfl
    exact ⟨1, runLoop_refused h _ _ _⟩

/-- Settles O40: a terminal step is the identity, and both restarts set the run state themselves. -/
theorem terminalAndUnpoweredCpusDoNotStep : Obligations.TerminalAndUnpoweredCpusDoNotStep := by
  intro s
  refine ⟨step_of_terminal, fun hp => ⟨_, hostReset_powered hp, rfl⟩, rfl, fun hp => ?_⟩
  have hreset : hostReset s = .refused .notPowered := by
    rw [hostReset, hp]
    rfl
  exact ⟨step_unpowered hp, hreset, runGives_of_refused (step_unpowered hp)⟩

/-! ## Every powered CPU steps on (R185, R200) -/

/-- The acts of a callback that keeps out of the engine. -/
theorem not_callbackTouches {s u : State} (h : s.callbacksKeepOut = true) {w : Word} {cb : Callback}
    (hcb : s.vsr.lookup w = some cb) (part : EnginePart) : .touchEngine part ∉ u.callbackActs cb := by
  have hkeep := List.all_eq_true.mp h (w, cb) (mem_of_lookup_eq_some hcb)
  cases cb with
  | unknown id => cases hkeep
  | known acts =>
    intro hpart
    exact Bool.false_ne_true (List.all_eq_true.mp hkeep _ hpart)

/-- Settles O44: only a callback that changes engine state could stop the step. -/
theorem everyStepOfAPoweredCpuCompletes : Obligations.EveryStepOfAPoweredCpuCompletes := by
  intro s hp hkeep
  by_cases hr : s.runState = .running
  · cases hnmi : s.takesNmi with
    | true => exact ⟨_, step_of_nmi hp hr hnmi⟩
    | false =>
      cases hirq : s.takesIrq with
      | true => exact ⟨_, step_of_irq hp hr hirq⟩
      | false =>
        obtain ⟨t, ht⟩ | ⟨part, ⟨w, cb, -, hcb, hpart⟩, -⟩ := exec_completesOrTouches (fetch_wf s) s.clearExit
        · exact ⟨_, (step_of_instr hp hr hnmi hirq).trans (finish_next.mpr ⟨t, ht, rfl⟩)⟩
        · exact absurd hpart (not_callbackTouches hkeep hcb part)
  · exact ⟨s, step_of_terminal hp hr⟩

/-! ## What a step of a running CPU leaves before it ends (R162, R182) -/

/-- The opcode of a legal instruction costs cycles in the NMOS table (R232). -/
theorem nmosCycles_base_pos {op : Byte} (h : isIllegal op = false) : 0 < (nmosCycles op).base := by
  revert op
  decide

/-- What the service of an interrupt, or the instruction run, has made of the state `s` of a running CPU when the end of
the step begins. -/
structure StepBody (s u : State) : Prop where
  nmiLatch : u.nmiLatch = false
  irqLine : u.irqLine = s.irqLine
  stuckCount : u.stuckCount = s.stuckCount
  vsr : u.vsr = s.vsr
  powered : u.powered = s.powered
  params : u.params = s.params
  coverage : u.coverage = s.coverage ∨ ∃ op, u.coverage = mark op s.coverage
  cycles : s.cycles ≤ u.cycles
  runState : (∃ pc op, u.runState = .illegalOpcode pc op) ∨
    u.runState = .running ∧ (s.params.cycleTable = [] → s.cycles < u.cycles)

theorem serviceNmi_stepBody {s : State} (hr : s.runState = .running) : StepBody s s.clearExit.serviceNmi := by
  have hcycles : s.clearExit.serviceNmi.cycles = s.cycles + 7 := serviceNmi_cycles _
  exact ⟨serviceNmi_nmiLatch _, serviceNmi_irqLine _, serviceNmi_stuckCount _, serviceNmi_vsr _, serviceNmi_powered _,
    serviceNmi_params _, .inl (serviceNmi_coverage _), by omega,
    .inr ⟨(serviceNmi_runState _).trans hr, fun _ => by omega⟩⟩

theorem nmiLatch_of_takesIrq {s : State} (h : s.takesIrq = true) : s.nmiLatch = false := by
  simp only [State.takesIrq, Bool.and_eq_true, Bool.not_eq_true'] at h
  obtain ⟨⟨hlatch, -⟩, -⟩ := h
  exact hlatch

theorem serviceIrq_stepBody {s : State} (hr : s.runState = .running) (hi : s.takesIrq = true) :
    StepBody s s.clearExit.serviceIrq := by
  have hcycles : s.clearExit.serviceIrq.cycles = s.cycles + 7 := serviceIrq_cycles _
  exact ⟨(serviceIrq_nmiLatch _).trans (nmiLatch_of_takesIrq hi), serviceIrq_irqLine _, serviceIrq_stuckCount _, serviceIrq_vsr _,
    serviceIrq_powered _, serviceIrq_params _, .inl (serviceIrq_coverage _), by omega,
    .inr ⟨(serviceIrq_runState _).trans hr, fun _ => by omega⟩⟩

theorem exec_stepBody {i : Instr} {s u : State} (hr : s.runState = .running) (hn : s.takesNmi = false)
    (hu : exec i s.clearExit = .next u) : StepBody s u := by
  obtain ⟨op, hop, ⟨hm, hb⟩ | ⟨-, rfl⟩⟩ := exec_next hu
  · obtain ⟨hnmi, hirq, hstuck, hvsr, hpowered, hparams, -, -⟩ := hb.untouched
    obtain ⟨extra, hcycles⟩ := hb.cycles
    have hcycles : u.cycles = s.cycles + ((s.params.cycleRow op).base + extra) := hcycles
    refine ⟨hnmi.trans hn, hirq, hstuck, hvsr, hpowered, hparams, .inr ⟨op, hb.coverage⟩, by omega,
      .inr ⟨hb.runState.trans hr, fun htable => ?_⟩⟩
    have hrow : s.params.cycleRow op = nmosCycles op := by
      rw [Params.cycleRow, htable]
      rfl
    have := nmosCycles_base_pos (isIllegal_of_opcode hm hop)
    rw [hrow] at hcycles
    omega
  · exact ⟨hn, rfl, rfl, rfl, rfl, rfl, .inl rfl, le_rfl, .inl ⟨_, _, rfl⟩⟩

/-- A step is its body and the end of the step; in a terminal run state it is the identity. -/
theorem step_cases {s t : State} (h : step s = .next t) :
    (s.runState ≠ .running ∧ t = s) ∨ s.runState = .running ∧ ∃ u, StepBody s u ∧ t = u.endStep s.pc := by
  obtain ⟨-, hterminal | ⟨hr, -, rfl⟩ | ⟨hr, hi, rfl⟩ | ⟨hr, hn, -, u, hu, rfl⟩⟩ := step_next h
  · exact .inl hterminal
  · exact .inr ⟨hr, _, serviceNmi_stepBody hr, rfl⟩
  · exact .inr ⟨hr, _, serviceIrq_stepBody hr hi, rfl⟩
  · exact .inr ⟨hr, u, exec_stepBody hr hn hu, rfl⟩

/-- A step that does not end in IllegalOpcode was Running until its end, and has taken cycles under the NMOS table. -/
theorem StepBody.running_of_legal {s u : State} (h : StepBody s u) (w : Word)
    (hlegal : ∀ pc op, (u.endStep w).runState ≠ .illegalOpcode pc op) :
    u.runState = .running ∧ (s.params.cycleTable = [] → s.cycles < u.cycles) := by
  refine h.runState.resolve_left ?_
  rintro ⟨pc, op, hill⟩
  refine hlegal pc op ?_
  rw [endStep_terminal w (by simp [hill]), hill]

theorem step_cycles_le {s t : State} (h : step s = .next t) : s.cycles ≤ t.cycles := by
  obtain ⟨-, rfl⟩ | ⟨-, u, hbody, rfl⟩ := step_cases h
  · exact le_rfl
  · rw [endStep_cycles]
    exact hbody.cycles

/-- Settles O48: neither the body of a step nor its end writes any of this but the latch, coverage and cycles. -/
theorem stepNeverWritesRegistryOrLine : Obligations.StepNeverWritesRegistryOrLine := by
  intro s t h
  obtain ⟨hr, rfl⟩ | ⟨hr, u, hbody, rfl⟩ := step_cases h
  · exact ⟨rfl, rfl, rfl, rfl, by simp [hr], fun _ => id, le_rfl⟩
  · refine ⟨(endStep_vsr ..).trans hbody.vsr, (endStep_irqLine ..).trans hbody.irqLine,
      (endStep_powered ..).trans hbody.powered, (endStep_params ..).trans hbody.params, ?latch, fun op hop => ?marks,
      step_cycles_le h⟩
    case latch => simp [hr, hbody.nmiLatch]
    case marks =>
      rw [endStep_coverage]
      obtain hcov | ⟨op', hcov⟩ := hbody.coverage
      · rwa [hcov]
      · rw [hcov]
        exact mem_mark.mpr (.inr hop)

/-- Settles O52: a step marks at most one opcode. -/
theorem coverageIsASetOfLegalOpcodes : Obligations.CoverageIsASetOfLegalOpcodes := by
  refine ⟨fun l op hl hop => ⟨coverageWf_mark hl hop, fun b => mem_mark, length_mark (coverageWf_iff.mp hl).1⟩,
    fun l => length_le_of_coverageWf, fun s t hinv h => ?_⟩
  suffices hlen : s.coverage.length ≤ t.coverage.length ∧ t.coverage.length ≤ s.coverage.length + 1 from
    ⟨hlen.1, hlen.2, rfl⟩
  obtain ⟨-, rfl⟩ | ⟨-, u, hbody, rfl⟩ := step_cases h
  · omega
  · rw [endStep_coverage]
    obtain hcov | ⟨op, hcov⟩ := hbody.coverage
    · rw [hcov]
      omega
    · rw [hcov, length_mark (coverageWf_iff.mp hinv.coverage).1]
      split <;> omega

/-! ## How a step ends (R172, R173, R176) -/

section
variable {u : State} (w : Word) (hrun : u.runState = .running)
include hrun

theorem endStep_stuckCount : (u.endStep w).stuckCount = u.nextStuckCount w := by rw [endStep_running w hrun]

theorem endStep_runState : (u.endStep w).runState = u.endStatus w := by rw [endStep_running w hrun]

end

theorem endStatus_of_exitReq {u : State} (w : Word) (h : u.exitReq = true) :
    u.endStatus w = .exited u.a u.cycles u.coverageFraction := if_pos h

theorem endStatus_of_not_exitReq {u : State} (w : Word) (h : u.exitReq = false) :
    u.endStatus w = if u.params.stuckLimit ≤ u.nextStuckCount w then .stuck u.pc u.cycles else .running :=
  if_neg (by simp [h])

/-- Settles O41: the end of a step counts from the counter that its body has kept. -/
theorem stuckAfterStuckLimitStepsInPlace : Obligations.StuckAfterStuckLimitStepsInPlace := by
  intro s t _ hr h hlegal
  obtain ⟨hne, -⟩ | ⟨-, u, hbody, rfl⟩ := step_cases h
  · exact absurd hr hne
  · obtain ⟨hrun, -⟩ := hbody.running_of_legal s.pc hlegal
    rw [endStep_stuckCount _ hrun, endStep_runState _ hrun, endStep_pc, endStep_cycles]
    refine ⟨?_, fun hexited => ?_⟩
    · rw [State.nextStuckCount, hbody.stuckCount, hbody.params]
    · have hreq : u.exitReq = false := Bool.eq_false_iff.mpr fun hreq =>
        hexited _ _ _ (endStatus_of_exitReq s.pc hreq)
      rw [endStatus_of_not_exitReq _ hreq, hbody.params]

/-- A step ends in Exited only on a request. -/
theorem exitReq_of_exited {s u : State} (hbody : StepBody s u) {w : Word} {st : Byte} {cy : Nat}
    {cov : CoverageFraction} (h : (u.endStep w).runState = .exited st cy cov) : u.exitReq = true := by
  obtain ⟨hrun, -⟩ := hbody.running_of_legal w (by simp [h])
  by_contra hreq
  rw [endStep_runState w hrun, endStatus_of_not_exitReq w (Bool.eq_false_iff.mpr hreq)] at h
  split at h <;> cases h

/-- Only a callback requests exit. -/
theorem callback_of_exitReq {i : Instr} {s u : State} (hu : exec i s.clearExit = .next u) (hreq : u.exitReq = true) :
    ∃ w cb, Claims.jumpTarget i s = some w ∧ s.vsr.lookup w = some cb := by
  by_contra hnone
  have hn : Claims.noCallback i s.clearExit := fun w hw => by
    by_contra hcb
    obtain ⟨cb, hcb⟩ := Option.ne_none_iff_exists'.mp hcb
    exact hnone ⟨w, cb, hw, hcb⟩
  have hkept : u.exitReq = s.clearExit.exitReq := (exec_instrFrame hn hu).exitReq
  rw [hreq] at hkept
  cases hkept

/-- Settles O42: a request is looked at before the stuck counter, and interrupt services make none. -/
theorem exitedIsACallbackRequest : Obligations.ExitedIsACallbackRequest := by
  refine ⟨fun s u hruns hu hreq hrun => ⟨u.endStep s.pc, ?_, ?_⟩, fun s t st cy cov hp hr h hexited => ?_⟩
  · rw [step_of_runsInstr hruns, hu, finish]
  · rw [endStep_running _ hrun, endStatus_of_exitReq _ hreq]
    refine ⟨rfl, rfl, ?_⟩
    rw [← hreq, ← hrun]
  · obtain ⟨-, ⟨hne, -⟩ | ⟨-, -, rfl⟩ | ⟨-, hirq, rfl⟩ | ⟨-, hnmi, hirq, u, hu, rfl⟩⟩ := step_next h
    · exact absurd hr hne
    · have hreq := exitReq_of_exited (serviceNmi_stepBody hr) hexited
      rw [serviceNmi_exitReq] at hreq
      cases hreq
    · have hreq := exitReq_of_exited (serviceIrq_stepBody hr hirq) hexited
      rw [serviceIrq_exitReq] at hreq
      cases hreq
    · have hreq := exitReq_of_exited (exec_stepBody hr hnmi hu) hexited
      exact ⟨runsInstr_iff.mpr ⟨hp, hr, hnmi, hirq⟩, ⟨u, hu, hreq⟩, callback_of_exitReq hu hreq⟩

/-! ## The host's calls (R174, R179 to R182, R221 to R223) -/

/-- Settles O56: each call is one field update; the registry is updated by `putVsr`. -/
theorem hostCallsChangeOnlyTheirState : Obligations.HostCallsChangeOnlyTheirState := by
  intro s b a a' cb hvsr
  exact ⟨rfl, rfl, rfl, rfl, ⟨rfl, vsrWf_putVsr a cb hvsr, lookup_putVsr a a' cb s.vsr⟩, rfl⟩

/-- Settles O47: each call writes fields that the invariant does not read, or sets them to values that it allows. -/
theorem hostCallsKeepTheInvariant : Obligations.HostCallsKeepTheInvariant := by
  intro s b a v cb h
  refine ⟨?power, { h with }, { h with }, { h with }, { h with vsr := vsrWf_putVsr a cb h.vsr },
    { h with mem := write_wf s a v h.mem }, fun t ht => ?reset⟩
  case power => exact { construct_inv s.params h.mem with }
  case reset =>
    cases hp : s.powered with
    | false =>
      rw [hostReset, hp] at ht
      cases ht
    | true =>
      rw [hostReset_powered hp] at ht
      obtain rfl := Host.Outcome.next.inj ht
      exact { h with
        bit5 := (by decide : (0x36 : Byte).getLsbD 5 = true), stuck := Nat.zero_le _, running := fun _ => id }

/-! ## run(n) (R183) -/

/-- A loop that ends has one result. -/
theorem runLoop_unique {start n fuel fuel' : Nat} {s : State} {r r' : RunResult} (h : runLoop start n fuel s = some r)
    (h' : runLoop start n fuel' s = some r') : r = r' := by
  have hr := runLoop_more (more := fuel') h
  have hr' := runLoop_more (more := fuel) h'
  rw [Nat.add_comm] at hr'
  exact Option.some.inj (hr.symm.trans hr')

/-- The loop looks only at where the cycles have to get to: a run may be restarted from a later state for the cycles
left. -/
theorem runLoop_restart {start start' n n' : Nat} (hend : start + n = start' + n') (fuel : Nat) {s : State}
    (hs : start ≤ s.cycles) (hs' : start' ≤ s.cycles) : runLoop start n fuel s = runLoop start' n' fuel s := by
  induction fuel generalizing s with
  | zero => rfl
  | succ fuel ih =>
    cases hstep : step s with
    | fault e => rw [runLoop_fault hstep, runLoop_fault hstep]
    | refused e => rw [runLoop_refused hstep, runLoop_refused hstep]
    | next t =>
      have hle := step_cycles_le hstep
      have hiff : t.cycles - start ≥ n ↔ t.cycles - start' ≥ n' := by omega
      rw [runLoop_next hstep, runLoop_next hstep, if_congr hiff rfl (ih (hs.trans hle) (hs'.trans hle))]

/-- What a run gives that begins with a step to `t`. -/
theorem runGives_of_next {s t : State} (h : step s = .next t) (n : Nat) (r : RunResult) :
    RunGives n s r ↔ ∃ fuel, (if t.runState ≠ .running then some (.returned t.runState t)
      else if t.cycles - s.cycles ≥ n then some (.returned .running t) else runLoop s.cycles n fuel t) = some r := by
  constructor
  · rintro ⟨_ | fuel, hr⟩
    · cases hr
    · exact ⟨fuel, (runLoop_next h ..).symm.trans hr⟩
  · rintro ⟨fuel, hr⟩
    exact ⟨fuel + 1, (runLoop_next h ..).trans hr⟩

theorem runGives_iff_of_next {s t : State} (h : step s = .next t) (n : Nat) (r : RunResult) :
    RunGives n s r ↔
      if t.runState ≠ .running then r = .returned t.runState t
      else if n ≤ t.cycles - s.cycles then r = .returned .running t
      else RunGives (n - (t.cycles - s.cycles)) t r := by
  rw [runGives_of_next h]
  split
  · simp [eq_comm]
  · split
    · simp [eq_comm]
    · have hle := step_cycles_le h
      exact exists_congr fun fuel => by
        rw [runLoop_restart (start' := t.cycles) (n' := n - (t.cycles - s.cycles)) (by omega) fuel hle le_rfl, runWithin]

/-- A loop that returns Continue has got to its cycles, and had not before its last step, unless that was its first. -/
theorem runLoop_continue {start n fuel : Nat} {s t : State} (h : runLoop start n fuel s = some (.returned .running t))
    (hs : start ≤ s.cycles) : start + n ≤ t.cycles ∧ ∃ u, step u = .next t ∧ (u = s ∨ u.cycles < start + n) := by
  induction fuel generalizing s with
  | zero => cases h
  | succ fuel ih =>
    cases hstep : step s with
    | fault e => rw [runLoop_fault hstep] at h; cases h
    | refused e => rw [runLoop_refused hstep] at h; cases h
    | next v =>
      have hle := step_cycles_le hstep
      rw [runLoop_next hstep] at h
      split at h
      · next hne => exact absurd (RunResult.returned.inj (Option.some.inj h)).1 hne
      · split at h
        · obtain ⟨-, rfl⟩ := RunResult.returned.inj (Option.some.inj h)
          exact ⟨by omega, s, hstep, .inl rfl⟩
        · obtain ⟨hend, u, hu, hlast⟩ := ih h (hs.trans hle)
          refine ⟨hend, u, hu, .inr ?_⟩
          obtain rfl | hlast := hlast
          · omega
          · exact hlast

/-- Under the NMOS table a step that ends Running has taken cycles (R232); it keeps the table. -/
theorem cycles_lt_of_step {s t : State} (htable : s.params.cycleTable = []) (h : step s = .next t)
    (ht : t.runState = .running) : t.params = s.params ∧ s.cycles < t.cycles := by
  obtain ⟨hne, rfl⟩ | ⟨-, u, hbody, rfl⟩ := step_cases h
  · exact absurd ht hne
  · obtain ⟨-, hlt⟩ := hbody.running_of_legal s.pc (by simp [ht])
    rw [endStep_params, endStep_cycles]
    exact ⟨hbody.params, hlt htable⟩

/-- Under the NMOS table the loop ends within a step for each cycle still to take. -/
theorem runLoop_ends {start n fuel : Nat} {s : State} (htable : s.params.cycleTable = []) (hfuel : 0 < fuel)
    (hleft : start + n < s.cycles + fuel) : ∃ r, runLoop start n fuel s = some r := by
  induction fuel generalizing s with
  | zero => cases hfuel
  | succ fuel ih =>
    cases hstep : step s with
    | fault e => exact ⟨_, runLoop_fault hstep ..⟩
    | refused e => exact ⟨_, runLoop_refused hstep ..⟩
    | next t =>
      rw [runLoop_next hstep]
      split
      · exact ⟨_, rfl⟩
      · next hrun =>
        obtain ⟨hparams, hlt⟩ := cycles_lt_of_step htable hstep (not_not.mp hrun)
        split
        · exact ⟨_, rfl⟩
        · exact ih (hparams ▸ htable) (by omega) (by omega)

/-- Settles O57: the loop restarted from the state reached is the run for the cycles left. -/
theorem runStopsAtAStatusOrAfterItsCycles : Obligations.RunStopsAtAStatusOrAfterItsCycles := by
  intro n s
  exact ⟨fun r r' ⟨_, h⟩ ⟨_, h'⟩ => runLoop_unique h h', fun t r h => runGives_iff_of_next h n r,
    fun e r h => runGives_of_refused h n r, fun t ⟨_, h⟩ => runLoop_continue h le_rfl,
    fun htable => runLoop_ends htable (Nat.succ_pos n) (by omega)⟩

end Sys2Proof.Machine

/-! # Proofs of the statements on the disassembler (49_disassembler.md): what decode_one answers inside and outside the
segment, and the loop of decode_region. -/

namespace Sys2Proof.Machine

/-! ## The bytes the disassembler may read (R187, R194) -/

theorem readableIn_iff {seg : Segment} {a : Nat} : readableIn seg a = true ↔ seg.lo ≤ a ∧ a ≤ seg.hi ∧ a ≤ 0xFFFF := by
  simp only [readableIn, inSegment, Bool.and_eq_true, decide_eq_true_eq, and_assoc]

theorem mode_length_pos (mode : Mode) : 0 < mode.length := by
  have := length_eq_one_or_two_or_three mode
  omega

/-- The bytes of the instruction at `addr`. -/
def instrBytes (mem : Memory) (addr : Nat) : List Byte :=
  (List.range (lookup (mem.read addr)).mode.length).map fun k => mem.read (addr + k)

theorem getD_one_instrBytes {mem : Memory} {addr : Nat} (h : (lookup (mem.read addr)).mode.length = 2) :
    (instrBytes mem addr).getD 1 0 = mem.read (addr + 1) := by
  rw [instrBytes, h]
  rfl

/-- Every byte of the instruction at `addr` may be read. -/
def InstrReadable (seg : Segment) (mem : Memory) (addr : Nat) : Prop :=
  ∀ k, k < (lookup (mem.read addr)).mode.length → seg.lo ≤ addr + k ∧ addr + k ≤ seg.hi ∧ addr + k ≤ 0xFFFF

theorem instrReadable_iff {seg : Segment} {mem : Memory} {addr : Nat} :
    InstrReadable seg mem addr ↔
      ((List.range (lookup (mem.read addr)).mode.length).all fun k => readableIn seg (addr + k)) = true := by
  simp only [InstrReadable, List.all_eq_true, List.mem_range, readableIn_iff]

theorem InstrReadable.first {seg : Segment} {mem : Memory} {addr : Nat} (h : InstrReadable seg mem addr) :
    readableIn seg addr = true :=
  readableIn_iff.mpr (h 0 (mode_length_pos _))

/-! ## decode_one (R187 to R194) -/

/-- What decode_one answers for the instruction at `addr` if its bytes may be read. -/
def disassemblyAt (addr : Nat) (mem : Memory) (symbols : Symbols) : Disassembly :=
  let e := lookup (mem.read addr)
  let bytes := instrBytes mem addr
  { dump := dumpText bytes
    symbol := (symbols.lookup addr).getD ""
    text := instrText e (bytes.getD 1 0) (bytes.getD 2 0)
    comment := commentText e.mode addr (bytes.getD 1 0)
    length := e.mode.length }

section
variable {seg : Segment} {addr : Nat} {mem : Memory} {symbols : Symbols}

theorem decodeOne_of_instrReadable (h : InstrReadable seg mem addr) :
    decodeOne seg addr mem symbols = .ok (disassemblyAt addr mem symbols) := by
  rw [decodeOne, if_pos h.first]
  exact if_pos (instrReadable_iff.mp h)

theorem decodeOne_of_not_instrReadable (h : ¬InstrReadable seg mem addr) :
    decodeOne seg addr mem symbols = .error (.outOfRange addr) := by
  unfold decodeOne
  split
  · exact if_neg (mt instrReadable_iff.mpr h)
  · rfl

theorem length_of_decodeOne {d : Disassembly} (h : decodeOne seg addr mem symbols = .ok d) :
    d.length = (lookup (mem.read addr)).mode.length := by
  by_cases hr : InstrReadable seg mem addr
  · obtain rfl := Except.ok.inj ((decodeOne_of_instrReadable hr).symm.trans h)
    rfl
  · cases (decodeOne_of_not_instrReadable hr).symm.trans h

theorem length_pos_of_decodeOne {d : Disassembly} (h : decodeOne seg addr mem symbols = .ok d) : 0 < d.length :=
  length_of_decodeOne h ▸ mode_length_pos _

end

/-- An illegal byte decodes as `illegal`, one byte long (R192). -/
theorem disassemblyAt_of_illegal {mem : Memory} {addr : Nat} (h : mem.read addr ∈ illegalOpcodes) (symbols : Symbols) :
    (disassemblyAt addr mem symbols).text = "illegal" ∧ (lookup (mem.read addr)).mode.length = 1 := by
  rw [disassemblyAt, lookup_of_isIllegal _ (mem_illegalOpcodes_iff.mp h)]
  exact ⟨rfl, rfl⟩

theorem commentText_of_ne_relative {mode : Mode} (h : mode ≠ .relative) (addr : Nat) (b1 : Byte) :
    commentText mode addr b1 = "" := by
  cases mode with
  | relative => exact absurd rfl h
  | _ => rfl

/-- The comment of a branch is its target, the signed offset added to the next instruction's address (R191). -/
theorem comment_disassemblyAt_of_relative {mem : Memory} {addr : Nat} (hmode : (lookup (mem.read addr)).mode = .relative)
    (haddr : addr ≤ 0xFFFF) (symbols : Symbols) :
    (disassemblyAt addr mem symbols).comment =
      "$" ++ hexWord (BitVec.ofInt 16 (addr + 2 + (mem.read (addr + 1)).toInt)) := by
  have hlen : (lookup (mem.read addr)).mode.length = 2 := by rw [hmode]; rfl
  have hpc : (BitVec.ofNat 16 addr).toNat = addr := Nat.mod_eq_of_lt (Nat.lt_succ_of_le haddr)
  calc (disassemblyAt addr mem symbols).comment
      = commentText .relative addr (mem.read (addr + 1)) := by rw [disassemblyAt, getD_one_instrBytes hlen, hmode]
    _ = "$" ++ hexWord (relativeTarget (BitVec.ofNat 16 addr) (mem.read (addr + 1))) := rfl
    _ = _ := by rw [relativeTarget_eq_ofInt, hpc]

/-! ## decode_region (R195) -/

section
variable {seg : Segment} {mem : Memory} {symbols : Symbols} {stop cur : Nat}

theorem decodeFrom_of_le (h : stop ≤ cur) (turns : Nat) : decodeFrom seg mem symbols stop turns cur = [] := by
  cases turns with
  | zero => rfl
  | succ turns => exact if_neg (Nat.not_lt.mpr h)

theorem decodeFrom_of_error {e : Fault} (h : decodeOne seg cur mem symbols = .error e) (hlt : cur < stop) (turns : Nat) :
    decodeFrom seg mem symbols stop (turns + 1) cur = [.error e] := by
  rw [decodeFrom, if_pos hlt, h]

theorem decodeFrom_of_ok {d : Disassembly} (h : decodeOne seg cur mem symbols = .ok d) (hlt : cur < stop) (turns : Nat) :
    decodeFrom seg mem symbols stop (turns + 1) cur =
      .ok d :: decodeFrom seg mem symbols stop turns (cur + d.length) := by
  rw [decodeFrom, if_pos hlt, h]

theorem length_decodeFrom_le (turns cur : Nat) : (decodeFrom seg mem symbols stop turns cur).length ≤ turns := by
  induction turns generalizing cur with
  | zero => exact le_rfl
  | succ turns ih =>
    obtain hle | hlt := le_or_gt stop cur
    · rw [decodeFrom_of_le hle]
      exact Nat.zero_le _
    · cases h : decodeOne seg cur mem symbols with
      | error e =>
        rw [decodeFrom_of_error h hlt]
        exact Nat.succ_le_succ (Nat.zero_le _)
      | ok d =>
        rw [decodeFrom_of_ok h hlt]
        exact Nat.succ_le_succ (ih _)

/-- The turns do not matter once they reach the end: every instruction has at least one byte. -/
theorem decodeFrom_eq_of_le {turns turns' : Nat} (h : stop ≤ cur + turns) (h' : stop ≤ cur + turns') :
    decodeFrom seg mem symbols stop turns cur = decodeFrom seg mem symbols stop turns' cur := by
  induction turns generalizing turns' cur with
  | zero =>
    have hle : stop ≤ cur := h
    rw [decodeFrom_of_le hle, decodeFrom_of_le hle]
  | succ turns ih =>
    obtain hle | hlt := le_or_gt stop cur
    · rw [decodeFrom_of_le hle, decodeFrom_of_le hle]
    · obtain ⟨turns', rfl⟩ : ∃ n, turns' = n + 1 := ⟨turns' - 1, by omega⟩
      cases hone : decodeOne seg cur mem symbols with
      | error e => rw [decodeFrom_of_error hone hlt, decodeFrom_of_error hone hlt]
      | ok d =>
        have hpos := length_pos_of_decodeOne hone
        rw [decodeFrom_of_ok hone hlt, decodeFrom_of_ok hone hlt, ih (turns' := turns') (by omega) (by omega)]

/-- The loop's rest is the region from where it stands to the same end. -/
theorem decodeFrom_eq_decodeRegion {turns : Nat} (h : stop ≤ cur + turns) :
    decodeFrom seg mem symbols stop turns cur = decodeRegion seg cur (stop - cur) mem symbols := by
  obtain hle | hlt := le_or_gt stop cur
  · rw [decodeFrom_of_le hle, Nat.sub_eq_zero_of_le hle]
    rfl
  · rw [decodeRegion, Nat.add_sub_cancel' hlt.le]
    exact decodeFrom_eq_of_le h (by omega)

end

/-! ## The statements -/

/-- Settles O59: after the first instruction the loop is the region that begins at the next one. -/
theorem regionDecodesInstructionByInstruction : Obligations.RegionDecodesInstructionByInstruction := by
  intro seg addr len mem symbols
  refine ⟨rfl, length_decodeFrom_le .., fun e hlen h => ?_, fun d hlen h => ?_⟩
  · obtain ⟨turns, rfl⟩ := Nat.exists_eq_add_one.mpr hlen
    exact decodeFrom_of_error h (by omega) turns
  · obtain ⟨turns, rfl⟩ := Nat.exists_eq_add_one.mpr hlen
    have hpos := length_pos_of_decodeOne h
    refine ⟨hpos, ?_⟩
    rw [decodeRegion, decodeFrom_of_ok h (by omega), decodeFrom_eq_decodeRegion (by omega), Nat.add_sub_add_left]

/-- Settles O9: a Disassembly has the length of the opcode's mode, and so has the encoding of an instruction. -/
theorem disassemblerAndLookupAgreeOnLength : Obligations.DisassemblerAndLookupAgreeOnLength := by
  refine ⟨fun op => length_eq_one_or_two_or_three _, fun _ _ _ _ _ => length_of_decodeOne, rfl, rfl, fun i hwf => ?_⟩
  obtain ⟨op, hop⟩ := exists_opcode hwf
  rw [length_encode hop, opcodeByte_of_opcode hop, lookup_of_opcode hop, Instr.length]

/-- Settles O58: decode_one answers `disassemblyAt` exactly where the instruction's bytes may be read. -/
theorem decodeOneStaysInItsSegment : Obligations.DecodeOneStaysInItsSegment := by
  intro seg addr mem symbols
  refine ⟨fun h => ?_, decodeOne_of_not_instrReadable⟩
  obtain ⟨-, -, haddr⟩ := h 0 (mode_length_pos _)
  exact ⟨disassemblyAt addr mem symbols, decodeOne_of_instrReadable h, rfl, rfl, rfl,
    fun hill => disassemblyAt_of_illegal hill symbols, fun hmode => commentText_of_ne_relative hmode ..,
    fun hmode => comment_disassemblyAt_of_relative hmode haddr symbols⟩

/-- Settles O60: each text is evaluated. -/
theorem disassemblyTextOfTheSourceProgram : Obligations.DisassemblyTextOfTheSourceProgram :=
  ⟨rfl, rfl, rfl, rfl, rfl, rfl, rfl, rfl, rfl, rfl, rfl⟩

end Sys2Proof.Machine

/-! # Proofs of the statements on interrupts and exceptions (60_exceptions.md): what the service of an interrupt leaves,
which of the three a step does, that no step faults, and that a return undoes the entry before it. -/

namespace Sys2Proof.Machine

/-! ## The service of an interrupt (R203 to R206) -/

theorem getFlag_putFlag_same (f : Flag) (on : Bool) (p : Byte) : getFlag f (putFlag f on p) = on := by
  revert on p
  cases f <;> decide

/-- The status byte that an interrupt entry pushes: B clear and bit 5 set (R204). -/
theorem entryStatus_eq (s : State) : (s.readP &&& 0xEF) ||| bit5 = (s.p &&& 0xEF) ||| 0x20 := by
  have h (p : Byte) : ((p ||| 0x20) &&& 0xEF) ||| 0x20 = (p &&& 0xEF) ||| 0x20 := by
    revert p
    decide
  exact h s.p

theorem takesIrq_of_line {s : State} (hlatch : s.nmiLatch = false) (hline : s.irqLine = true) (hi : s.flag .i = false) :
    s.takesIrq = true := by
  rw [State.takesIrq, hlatch, hline, hi]
  rfl

/-- A read of 16 bits depends on memory alone. -/
theorem read16_of_mem_eq {s t : State} (h : t.mem = s.mem) (a : Word) : t.read16 a = s.read16 a := by
  rw [State.read16, State.read16, State.read, State.read, State.read, State.read, h]

/-- PC is the word at the vector, as memory stands after the pushes. -/
theorem interruptEntry_pc (s : State) (vec : Word) : (s.interruptEntry vec).pc = (s.interruptEntry vec).read16 vec := by
  rw [State.interruptEntry, takeInterrupt_pc]
  exact read16_of_mem_eq (takeInterrupt_mem ..).symm vec

/-- An interrupt entry through a vector above page 1, as one record update. -/
theorem interruptEntry_eq_ofNat {vec : Word} (hlo : 0x0200 ≤ vec.toNat) (hhi : 0x0200 ≤ (vec + 1).toNat) (s : State) :
    s.interruptEntry vec = { s with
      sp := BitVec.ofNat 8 (s.sp.toNat + 253)
      p := s.p ||| 0x04
      pc := BitVec.ofNat 16 ((s.mem.read vec.toNat).toNat + 256 * (s.mem.read (vec + 1).toNat).toNat)
      mem := ((s.mem.write (0x0100 + s.sp.toNat) (hiByte s.pc)).write
        (0x0100 + (s.sp.toNat + 255) % 256) (loByte s.pc)).write
        (0x0100 + (s.sp.toNat + 254) % 256) ((s.p &&& 0xEF) ||| 0x20) } := by
  rw [State.interruptEntry, takeInterrupt_eq_ofNat hlo hhi, entryStatus_eq, hiByte_eq_ofNat, loByte_eq_ofNat]
  rfl

/-- Settles O38: both services are the interrupt entry through their vector; NMI clears the latch before it. -/
theorem interruptEntryPushesPcAndStatus : Obligations.InterruptEntryPushesPcAndStatus := by
  intro s hp hr entered
  refine ⟨fun hlatch => ?nmi, fun hlatch hline hi => ?irq⟩
  case nmi =>
    rw [step_of_nmi hp hr hlatch, State.serviceNmi, interruptEntry_eq_ofNat (by decide) (by decide)]
    rfl
  case irq =>
    rw [step_of_irq hp hr (takesIrq_of_line hlatch hline hi), State.serviceIrq,
      interruptEntry_eq_ofNat (by decide) (by decide)]
    rfl

/-! ## NMI before IRQ before the instruction (R203) -/

/-- What the service of an interrupt leaves at the end of its step: I is set, so a line that is still true waits. -/
theorem interruptEntry_endStep {v t : State} {vec w : Word} (hlatch : v.nmiLatch = false)
    (ht : ((v.interruptEntry vec).addCycles 7).endStep w = t) :
    t.nmiLatch = false ∧ t.irqLine = v.irqLine ∧ t.flag .i = true ∧ t.takesIrq = false ∧ t.coverage = v.coverage ∧
      t.pc = t.read16 vec := by
  have hi : t.flag .i = true := by
    rw [flag_eq, ← ht, endStep_p, addCycles_p, State.interruptEntry, takeInterrupt_p, getFlag_putFlag_same]
  refine ⟨?_, ?_, hi, ?_, ?_, ?_⟩
  · rw [← ht, endStep_nmiLatch, addCycles_nmiLatch, interruptEntry_nmiLatch, hlatch]
  · rw [← ht, endStep_irqLine, addCycles_irqLine, interruptEntry_irqLine]
  · rw [State.takesIrq, hi, Bool.not_true, Bool.and_false]
  · rw [← ht, endStep_coverage, addCycles_coverage, interruptEntry_coverage]
  · have hmem : t.mem = (v.interruptEntry vec).mem := by rw [← ht, endStep_mem, addCycles_mem]
    rw [read16_of_mem_eq hmem, ← interruptEntry_pc, ← ht, endStep_pc, addCycles_pc]

/-- Settles O39: a step of a running CPU is one of three, and a service leaves I set. -/
theorem interruptPriorityIsNmiIrqInstruction : Obligations.InterruptPriorityIsNmiIrqInstruction := by
  intro s t hp hr h
  refine ⟨fun hlatch => ?nmi, fun hlatch hline hi => ?irq, fun hlatch hno => ?instr⟩
  case nmi =>
    rw [step_of_nmi hp hr hlatch] at h
    obtain ⟨hlatch', hline', hi, hno, hcov, hpc⟩ :=
      interruptEntry_endStep (v := { s.clearExit with nmiLatch := false }) rfl (Host.Outcome.next.inj h)
    exact ⟨hlatch', hline', hi, hno, hcov, hpc.trans (read16_of_mem_eq rfl _)⟩
  case irq =>
    rw [step_of_irq hp hr (takesIrq_of_line hlatch hline hi)] at h
    obtain ⟨hlatch', hline', hi, hno, hcov, hpc⟩ :=
      interruptEntry_endStep (v := s.clearExit) hlatch (Host.Outcome.next.inj h)
    exact ⟨hlatch', hline'.trans hline, hi, hno, hcov, hpc.trans (read16_of_mem_eq rfl _)⟩
  case instr =>
    have hruns : Claims.runsInstr s := ⟨hp, hr, hlatch, fun ⟨hline, hi⟩ =>
      hno.elim (fun hl => Bool.false_ne_true (hl.symm.trans hline)) fun hf => Bool.false_ne_true (hi.symm.trans hf)⟩
    rw [step_of_runsInstr hruns] at h
    exact finish_next.mp h

/-! ## No step faults (R200) -/

/-- A powered CPU steps on, or its instruction is a jump whose callback changes engine state (R175). -/
theorem step_completesOrTouches {s : State} (hp : s.powered = true) :
    (∃ t, step s = .next t) ∨ Claims.runsInstr s ∧
      ∃ part, CallbackTouches s.fetch s.clearExit part ∧ step s = .refused (.callbackTouchesEngine part) := by
  by_cases hr : s.runState = .running
  case neg => exact .inl ⟨s, step_of_terminal hp hr⟩
  cases hnmi : s.takesNmi
  case true => exact .inl ⟨_, step_of_nmi hp hr hnmi⟩
  cases hirq : s.takesIrq
  case true => exact .inl ⟨_, step_of_irq hp hr hirq⟩
  have hruns : Claims.runsInstr s := runsInstr_iff.mpr ⟨hp, hr, hnmi, hirq⟩
  rw [step_of_runsInstr hruns]
  obtain ⟨u, hu⟩ | ⟨part, hpart, hu⟩ := exec_completesOrTouches (fetch_wf s) s.clearExit
  · exact .inl ⟨_, congrArg (finish s.pc) hu⟩
  · exact .inr ⟨hruns, part, hpart, congrArg (finish s.pc) hu⟩

/-- Settles O43: an unpowered CPU refuses the step; a powered one steps on but for a callback that changes engine state. -/
theorem stepsNeverFaultAndSeldomRefuse : Obligations.StepsNeverFaultAndSeldomRefuse := by
  intro s
  cases hp : s.powered with
  | false =>
    rw [step_unpowered hp]
    exact ⟨fun _ => nofun, fun r hr => .inl ⟨(Host.Outcome.refused.inj hr).symm, rfl⟩⟩
  | true =>
    obtain ⟨t, ht⟩ | ⟨hruns, part, ⟨w, cb, hw, hcb, hpart⟩, ht⟩ := step_completesOrTouches hp
    · rw [ht]
      exact ⟨fun _ => nofun, fun _ => nofun⟩
    · rw [ht]
      exact ⟨fun _ => nofun,
        fun r hr => .inr ⟨part, w, cb, (Host.Outcome.refused.inj hr).symm, rfl, hruns, hw, hcb, hpart⟩⟩

/-! ## A return undoes an entry (R144 to R147, R204, R210) -/

/-- What a push does to the bytes of page 1. -/
theorem read_push {s : State} (hm : s.mem.wf = true) (v b : Byte) :
    (s.push v).read (stackAddr b) = if b = s.sp then v else s.read (stackAddr b) := by
  have heq : stackAddr b = stackAddr s.sp ↔ b = s.sp := by
    rw [eq_stackAddr_iff, stackAddr_toNat, Nat.add_left_cancel_iff, BitVec.toNat_inj]
  rw [State.push, read_setS, read_write s hm, if_congr heq rfl rfl]

theorem sub_one_ne (b : Byte) : b - 1 ≠ b := by bv_omega

theorem sub_two_ne (b : Byte) : b - 1 - 1 ≠ b := by bv_omega

theorem read_pushWord_high {s : State} (hm : s.mem.wf = true) (w : Word) :
    (s.pushWord w).read (stackAddr s.sp) = hiByte w := by
  rw [State.pushWord, read_push (push_wf _ _ hm), push_sp, if_neg (sub_one_ne s.sp).symm, read_push hm, if_pos rfl]

theorem read_pushWord_low {s : State} (hm : s.mem.wf = true) (w : Word) :
    (s.pushWord w).read (stackAddr (s.sp - 1)) = loByte w := by
  rw [State.pushWord, read_push (push_wf _ _ hm), push_sp, if_pos rfl]

/-- RTS from the stack that pushing the word `w` has left. -/
theorem returnFromSubroutine_of_pushWord {s t : State} {w : Word} (hm : s.mem.wf = true)
    (hmem : t.mem = (s.pushWord w).mem) (hsp : t.sp = (s.pushWord w).sp) :
    t.returnFromSubroutine.pc = w + 1 ∧ t.returnFromSubroutine.sp = s.sp := by
  have hread (a : Word) : t.read a = (s.pushWord w).read a := congrArg (Memory.read · a.toNat) hmem
  rw [returnFromSubroutine_pc, returnFromSubroutine_sp, hsp, pushWord_sp, BitVec.sub_add_cancel, BitVec.sub_add_cancel,
    hread, hread, read_pushWord_high hm, read_pushWord_low hm, concat_hiByte_loByte]
  exact ⟨rfl, rfl⟩

/-- RTI from the stack that an interrupt entry, or BRK, has left. -/
theorem returnFromInterrupt_of_takeInterrupt {s t : State} {vec ret : Word} {status : Byte} (hm : s.mem.wf = true)
    (hmem : t.mem = (s.takeInterrupt vec ret status).mem) (hsp : t.sp = (s.takeInterrupt vec ret status).sp) :
    t.returnFromInterrupt.pc = ret ∧ t.returnFromInterrupt.sp = s.sp ∧ t.returnFromInterrupt.p = status ||| bit5 := by
  rw [takeInterrupt_mem] at hmem
  have hread (b : Byte) : t.read (stackAddr b) =
      if b = s.sp - 1 - 1 then status else (s.pushWord ret).read (stackAddr b) := by
    rw [← pushWord_sp s ret, ← read_push (pushWord_wf s ret hm), State.read, hmem, State.read]
  rw [returnFromInterrupt_pc, returnFromInterrupt_sp, returnFromInterrupt_p, hsp, takeInterrupt_sp, BitVec.sub_add_cancel,
    BitVec.sub_add_cancel, BitVec.sub_add_cancel, hread, hread, hread, if_pos rfl, if_neg (sub_one_ne _).symm,
    if_neg (sub_two_ne _).symm, read_pushWord_high hm, read_pushWord_low hm, concat_hiByte_loByte]
  exact ⟨rfl, rfl, rfl⟩

section
variable (i : Instr) (extra : Nat) (s t : State)

theorem booked_mem : (Claims.booked i extra s t).mem = t.mem := rfl

theorem booked_sp : (Claims.booked i extra s t).sp = t.sp := rfl

/-- BRK leaves the stack of its interrupt sequence (R147). -/
theorem exec_brk_stack : ∃ u, exec .brk s = .next u ∧
    u.mem = (s.takeInterrupt irqVector (s.pc + 2) (s.readP ||| 0x30)).mem ∧
    u.sp = (s.takeInterrupt irqVector (s.pc + 2) (s.readP ||| 0x30)).sp :=
  ⟨_, execBrk_eq_booked s, by rw [booked_mem, setFlag_mem], by rw [booked_sp, setFlag_sp]⟩

/-- JSR to a target without a callback leaves its return address on the stack (R144). -/
theorem exec_jsr_stack {target : Word} (hvsr : s.vsr.lookup target = none) : ∃ u, exec (.jsr target) s = .next u ∧
    u.mem = (s.pushWord (s.pc + 2)).mem ∧ u.sp = (s.pushWord (s.pc + 2)).sp ∧ u.p = s.p :=
  ⟨_, execJsr_eq_booked hvsr, rfl, rfl, rfl⟩

theorem exec_rti_registers : ∃ u, exec .rti s = .next u ∧ u.pc = s.returnFromInterrupt.pc ∧
    u.sp = s.returnFromInterrupt.sp ∧ u.p = s.returnFromInterrupt.p :=
  ⟨_, execRti_eq_booked s, rfl, rfl, rfl⟩

theorem exec_rts_registers : ∃ u, exec .rts s = .next u ∧ u.pc = s.returnFromSubroutine.pc ∧
    u.sp = s.returnFromSubroutine.sp ∧ u.p = s.returnFromSubroutine.p :=
  ⟨_, execRts_eq_booked s, rfl, rfl, rfl⟩

end

/-- Settles O54: the bytes pushed lie at different addresses of page 1, wherever S wraps, and are pulled in the opposite
order. -/
theorem returnsUndoEntries : Obligations.ReturnsUndoEntries := by
  intro s vec target hm hvsr
  refine ⟨?entry, ?brk, ?jsr⟩
  case entry =>
    obtain ⟨hpc, hsp, hp⟩ := returnFromInterrupt_of_takeInterrupt (t := s.interruptEntry vec) hm rfl rfl
    rw [entryStatus_eq] at hp
    refine ⟨hpc, hsp, hp.trans (BitVec.or_assoc ..), ?_, ?_, ?_⟩
    · rw [returnFromInterrupt_a, interruptEntry_a]
    · rw [returnFromInterrupt_x, interruptEntry_x]
    · rw [returnFromInterrupt_y, interruptEntry_y]
  case brk =>
    obtain ⟨t, ht, hmem, hsp⟩ := exec_brk_stack s
    obtain ⟨u, hu, hupc, husp, hup⟩ := exec_rti_registers t
    obtain ⟨hpc, hsp, hp⟩ := returnFromInterrupt_of_takeInterrupt hm hmem hsp
    rw [readP_or_status] at hp
    exact ⟨t, u, ht, hu, hupc.trans hpc, husp.trans hsp, (hup.trans hp).trans (BitVec.or_assoc ..)⟩
  case jsr =>
    obtain ⟨t, ht, hmem, hsp, hp⟩ := exec_jsr_stack s hvsr
    obtain ⟨u, hu, hupc, husp, hup⟩ := exec_rts_registers t
    obtain ⟨hpc, hsp⟩ := returnFromSubroutine_of_pushWord hm hmem hsp
    refine ⟨t, u, ht, hu, (hupc.trans hpc).trans (BitVec.add_assoc ..), husp.trans hsp, ?_⟩
    rw [hup, returnFromSubroutine_p, hp]

end Sys2Proof.Machine
